-- ==== Sys2Proof/Word.lean ====
section
/-! DEFINITION. The plain types of the Ertamo WB4 model: bytes and words, the numbers of lanes, groups and
channels, and the two fixed-size families (four lanes or groups, eight channels) with their accessors. -/

namespace Sys2Proof

/-- A byte of the sensor bus, the aisle bus or the configuration block. -/
abbrev Byte := BitVec 8

/-- An article code, a group key or a mask (00, "Masks and matching"): 32 bits that are masked and compared. -/
abbrev Word := BitVec 32

/-- A shelf lane of the bay, 0 to 3. -/
abbrev LaneNo := Fin 4

/-- A group number, 0 to 3 (R131). -/
abbrev GroupNo := Fin 4

/-- A converter channel, 0 to 7 (R8). -/
abbrev ChannelNo := Fin 8

/-- The four lanes in ascending order. -/
def allLanes : List LaneNo := [0, 1, 2, 3]

/-- The four group numbers in ascending order. -/
def allGroups : List GroupNo := [0, 1, 2, 3]

/-- The eight channels in ascending order (R12). -/
def allChannels : List ChannelNo := [0, 1, 2, 3, 4, 5, 6, 7]

/-- Four like things, one per lane or per group number. -/
structure Four (α : Type) where
  at0 : α
  at1 : α
  at2 : α
  at3 : α
  deriving DecidableEq, Repr

/-- The item of number `i`. -/
def Four.get {α : Type} (q : Four α) (i : Fin 4) : α :=
  match i with
  | 0 => q.at0
  | 1 => q.at1
  | 2 => q.at2
  | 3 => q.at3

/-- The family with item `i` replaced. -/
def Four.set {α : Type} (q : Four α) (i : Fin 4) (v : α) : Four α :=
  match i with
  | 0 => { q with at0 := v }
  | 1 => { q with at1 := v }
  | 2 => { q with at2 := v }
  | 3 => { q with at3 := v }

/-- The same item four times. -/
def Four.all {α : Type} (v : α) : Four α := ⟨v, v, v, v⟩

/-- A function of the item applied to each of the four. -/
def Four.map {α β : Type} (f : α → β) (q : Four α) : Four β := ⟨f q.at0, f q.at1, f q.at2, f q.at3⟩

/-- The family whose item `i` is `f i`. -/
def Four.of {α : Type} (f : Fin 4 → α) : Four α := ⟨f 0, f 1, f 2, f 3⟩

/-- Eight like things, one per channel. -/
structure Eight (α : Type) where
  at0 : α
  at1 : α
  at2 : α
  at3 : α
  at4 : α
  at5 : α
  at6 : α
  at7 : α
  deriving DecidableEq, Repr

/-- The item of channel `i`. -/
def Eight.get {α : Type} (q : Eight α) (i : Fin 8) : α :=
  match i with
  | 0 => q.at0
  | 1 => q.at1
  | 2 => q.at2
  | 3 => q.at3
  | 4 => q.at4
  | 5 => q.at5
  | 6 => q.at6
  | 7 => q.at7

/-- The family with item `i` replaced. -/
def Eight.set {α : Type} (q : Eight α) (i : Fin 8) (v : α) : Eight α :=
  match i with
  | 0 => { q with at0 := v }
  | 1 => { q with at1 := v }
  | 2 => { q with at2 := v }
  | 3 => { q with at3 := v }
  | 4 => { q with at4 := v }
  | 5 => { q with at5 := v }
  | 6 => { q with at6 := v }
  | 7 => { q with at7 := v }

/-- The same item eight times. -/
def Eight.all {α : Type} (v : α) : Eight α := ⟨v, v, v, v, v, v, v, v⟩

/-- A function of the item applied to each of the eight. -/
def Eight.map {α β : Type} (f : α → β) (q : Eight α) : Eight β :=
  ⟨f q.at0, f q.at1, f q.at2, f q.at3, f q.at4, f q.at5, f q.at6, f q.at7⟩

/-- The family whose item `i` is `f i`. -/
def Eight.of {α : Type} (f : Fin 8 → α) : Eight α := ⟨f 0, f 1, f 2, f 3, f 4, f 5, f 6, f 7⟩

end Sys2Proof
end

