-- ==== Sys2Proof/Syntax.lean ====
section
/-! DEFINITION. The commands of the WB4: one constructor for each row of spec/opcode_table.json. The table gives the rows
no operand fields; the operands here are what the event brings from outside the part. `elapsed` is always the time in
microseconds since the command before it (log 1). -/

namespace Sys2Proof

/-- How a converter transaction came to its end (R3, R4, R6): the four bytes read (status, high, middle, low), or a missing
acknowledge in step 2, 3 or 5. -/
inductive ConverterEnd where
  | bytesRead (status high middle low : Byte)
  | notAcknowledged
  deriving DecidableEq, Repr

/-- A clock hold that has failed (R5): the bytes of the current segment that the engine has handed over before it (R15), and the level of
the sensor bus data line. -/
structure HoldFailure where
  received : List Byte
  dataHigh : Bool
  deriving DecidableEq, Repr

/-- A gap in a frame (R87): the time since the command before it, the characters received after the mark, and how long the gap has lasted in
microseconds. -/
structure FrameGap where
  elapsed : Nat
  chars : List Byte
  gap : Nat
  deriving DecidableEq, Repr

/-- A good RESTART frame (R178): its characters after the mark, and the straps as they stand, which are read if the frame resets the part,
because that reset ends at once (R169). -/
structure RestartFrame where
  chars : List Byte
  straps : BitVec 6
  deriving DecidableEq, Repr

/-- A lamp pattern origin the part keeps (R68): the three of a lane's own patterns, and the one of a group's FAST and SLOW. -/
inductive OriginName where
  | refuse (lane : LaneNo)
  | holdBeat (lane : LaneNo)
  | faultBeat (lane : LaneNo)
  | group (group : GroupNo)
  deriving DecidableEq, Repr

/-- The commands: the events of the part, each whole and indivisible (95_what_each_step_holds.md).
`dataHigh` is the level of the sensor bus data line at a bus check that the event may bring (R2, log 9).
`chars` are the characters of a frame after its mark: sender, kind, length, body and the two check characters (R84). -/
inductive Instr where
  | powerOnReset
  | resetInput
  | resetEnd (straps : BitVec 6)
  | warmUpEnd (elapsed : Nat) (dataHigh : Bool)
  | configSegmentEnd (elapsed : Nat) (bytes : List Byte) (dataHigh : Bool)
  | configAcknowledgeMissing (elapsed : Nat) (dataHigh : Bool)
  | roundTick (elapsed : Nat) (dataHigh : Bool)
  | converterTransactionComplete (elapsed : Nat) (result : ConverterEnd) (dataHigh : Bool)
  | stretchTimeout (elapsed : Nat) (hold : HoldFailure)
  | stretchStop (elapsed : Nat) (dataHigh : Bool)
  | busHeld (elapsed : Nat) (dataHigh : Bool)
  | supplyMonitorLow (elapsed : Nat)
  | supplyMonitorHigh (elapsed : Nat)
  | brownOutEnd (elapsed : Nat) (dataHigh : Bool)
  | lineIdle (elapsed : Nat)
  | lineBusy (elapsed : Nat)
  | framingFault (elapsed : Nat)
  | lineBreak (elapsed : Nat)
  | frameGapTimeout (gap : FrameGap)
  | bodyLengthTooLong (elapsed : Nat) (sender kind length : Byte)
  | frameRejected (elapsed : Nat) (chars : List Byte)
  | stockReceived (elapsed : Nat) (chars : List Byte)
  | surveyReceived (elapsed : Nat) (chars : List Byte)
  | disturbReceived (elapsed : Nat) (chars : List Byte)
  | raiseReceived (elapsed : Nat) (chars : List Byte)
  | clearReceived (elapsed : Nat) (chars : List Byte)
  | take (elapsed : Nat) (chars : List Byte)
  | takeRelease (elapsed : Nat) (chars : List Byte)
  | query (elapsed : Nat) (chars : List Byte)
  | restart (elapsed : Nat) (frame : RestartFrame)
  | statusFrameReceived (elapsed : Nat) (chars : List Byte)
  | attemptBegin (elapsed : Nat)
  | frameSent (elapsed : Nat)
  | collision (elapsed : Nat)
  | jamEnd (elapsed : Nat)
  | notBeforePassed (elapsed : Nat)
  | stuckMeasurementExpiry (elapsed : Nat)
  | listenOnlySecondTimer (elapsed : Nat)
  | disturbExpiry (elapsed : Nat)
  | buttonInputChange (elapsed : Nat) (lane : LaneNo) (high : Bool)
  | press (elapsed : Nat) (lane : LaneNo)
  | release (elapsed : Nat) (lane : LaneNo)
  | longPress (elapsed : Nat) (lane : LaneNo)
  | refusalFlashEnd (elapsed : Nat) (lane : LaneNo)
  | patternOriginAdvance (elapsed : Nat) (origin : OriginName)
  | holdTimerExpiry (elapsed : Nat) (lane : LaneNo)
  | reportTimerExpiry (elapsed : Nat)
  | surveyDelayEnd (elapsed : Nat) (lane : LaneNo)
  | holdoffExpiry (elapsed : Nat)
  | sendInhibitExpiry (elapsed : Nat)
  | entryAged (elapsed : Nat) (sender : Nat) (lane : LaneNo)
  | entryForgotten (elapsed : Nat) (sender : Nat) (lane : LaneNo)
  | rateTick (elapsed : Nat)
  | deferenceExpiry (elapsed : Nat) (group : GroupNo)
  | repeatExpiry (elapsed : Nat) (group : GroupNo)
  | watchExpiry (elapsed : Nat) (group : GroupNo)
  | takenExpiry (elapsed : Nat) (group : GroupNo)
  | joinSurveyOffer (elapsed : Nat)
  | joiningEnd (elapsed : Nat)
  | busRecoveryComplete (elapsed : Nat) (dataHigh : Bool)
  | readyCharacterReceived (elapsed : Nat) (value : Byte)
  deriving DecidableEq, Repr

end Sys2Proof
end

