-- ==== Sys2Proof/Decode.lean ====
section
/-! DEFINITION. The commands that a table word spells. spec/opcode_table.json gives no row any bits ("fields" is empty in all of them), so
no word spells a command (log 22). -/

namespace Sys2Proof

/-- The command that the word spells by the table's bits: none, because no row has bits. -/
def decodeTableWord (_nbits _w : Nat) : Option Instr := none

end Sys2Proof
end

