-- ==== Sys2Proof/Config.lean ====
section
/-! DEFINITION. What the manual leaves open: constants with no body, so that no proof can see their values. -/

namespace Sys2Proof

/-- A free choice of an order inside one event, applied to the counter of choices taken so far (log 5, log 6).
The manual gives no order among the lanes of a round (R34), the lanes that offer at an announcement of room (R113)
or the groups of a tick (R137, R144), nor between two notices of one event to different blocks. -/
opaque Config.freeOrder : Nat → Nat

/-- The 16-bit value of a random draw (00, "Random draws"; log 7): the source is seeded from the station number and
the first raw sample (R169, R12), and each draw may take any value in its range. It depends on the seed and on the
counter of choices taken so far, so that every draw is a fresh free value. -/
opaque Config.randomDraw (number : BitVec 6) (sample : Option Int) (counter : Nat) : BitVec 16

end Sys2Proof
end

