-- ==== Sys2Proof/Machine/State.lean ====
section
/-! DEFINITION. Everything the WB4 holds, block by block, as plain data, and the state right after a power-on reset. -/

namespace Sys2Proof.Machine

/-! ## Time (00, "Time") -/

/-- A station clock value: 32-bit milliseconds that wrap, and the fraction in whole microseconds. -/
structure Time where
  ms : BitVec 32
  us : Fin 1000
  deriving DecidableEq, Repr

/-- The clock value 0. -/
def Time.zero : Time := ⟨0, 0⟩

/-! ## Names of states, levels and codes -/

/-- Station phases (11, section 11.1). -/
inductive Phase where
  | reset | warmUp | loading | joining | running | configFault
  deriving DecidableEq, Repr

/-- Last reset cause (R169). -/
inductive ResetCause where
  | powerOn | resetInput | restart
  deriving DecidableEq, Repr

/-- Channel health (R8, R9). -/
inductive ChannelState where
  | idle | ok | suspect | faulted
  deriving DecidableEq, Repr

/-- A channel's outcome in the current round (R9). -/
inductive RoundResult where
  | none | good | failed
  deriving DecidableEq, Repr

/-- Service state of a lane (R54, section 4.2). -/
inductive LaneState where
  | off | starting | inService | held | resuming | fault
  deriving DecidableEq, Repr

/-- How far a count can be trusted (section 3.1). -/
inductive Confidence where
  | sure | doubtful | unknown
  deriving DecidableEq, Repr

/-- A group's stock judgement (R140). -/
inductive Level where
  | ok | low | empty
  deriving DecidableEq, Repr

/-- The level an alert record or a RAISE carries (10.1): LOW or EMPTY. -/
inductive Shortage where
  | low | empty
  deriving DecidableEq, Repr

/-- How far a group's aggregate can be trusted (R134). -/
inductive Quality where
  | sure | doubtful | indeterminate
  deriving DecidableEq, Repr

/-- Line error codes (R89, R100). -/
inductive LineError where
  | none | framing | length | check | kind
  deriving DecidableEq, Repr

/-- Line states (R98). -/
inductive LineState where
  | active | listenOnly
  deriving DecidableEq, Repr

/-- Alert states (10.1). -/
inductive AlertState where
  | clear | pending | raised | following | taken | suspended
  deriving DecidableEq, Repr

/-- Age states of a Peer Stock Table entry (R123). -/
inductive AgeState where
  | fresh | stale
  deriving DecidableEq, Repr

/-- Debounced button levels (R62). -/
inductive ButtonLevel where
  | active | inactive
  deriving DecidableEq, Repr

/-- The press in progress (R63). -/
inductive Press where
  | none
  | running (since : Time)
  | spent
  deriving DecidableEq, Repr

/-! ## Station Control -/

/-- Brown-out (R177): none; in brown-out with the input low; in brown-out with the input high since 100 ms before `ends`. -/
inductive BrownOut where
  | none
  | low
  | high (ends : Time)
  deriving DecidableEq, Repr

/-- What has become of the joining SURVEY (R175). `settled` is sent or discarded, eviction and refusal included. -/
inductive SurveyProgress where
  | notOffered
  | offered
  | settled (moment : Time)
  deriving DecidableEq, Repr

/-- The join timer (R175): the entry into JOINING, and the SURVEY's progress. -/
structure JoinTimer where
  entered : Time
  survey : SurveyProgress
  deriving DecidableEq, Repr

/-- The fifteen diagnostic counters, in the order of the STATUS table (6.4). -/
structure Counters where
  unitsPicked : Nat
  unitsPut : Nat
  doubtfulSettlements : Nat
  sensorFailures : Nat
  roundOverruns : Nat
  deferrals : Nat
  singleCollisions : Nat
  multipleCollisions : Nat
  excessiveCollisionDiscards : Nat
  lineErrors : Nat
  framesFilteredOut : Nat
  tableFullDrops : Nat
  queueEvictions : Nat
  queueRefusals : Nat
  refusedGatewayCommands : Nat
  deriving DecidableEq, Repr

/-- All counters 0 (R179). -/
def Counters.zero : Counters := ⟨0, 0, 0, 0, 0, 0, 0, 0, 0, 0, 0, 0, 0, 0, 0⟩

/-- The station's latched flags (11.6); also the shape of their cause notes (R179). -/
structure Flags where
  configAdjusted : Bool
  sensorBusFault : Bool
  numberClash : Bool
  lineStuck : Bool
  listenOnlyEntered : Bool
  deriving DecidableEq, Repr

/-- All flags clear. -/
def Flags.clear : Flags := ⟨false, false, false, false, false⟩

/-- The cause notes of R179: whether the cause of each latched flag, and of the last line error code, has acted since the
last capture. -/
structure CauseNotes where
  flags : Flags
  drift : Four Bool
  errorCode : Bool
  deriving DecidableEq, Repr

/-- All notes clear. -/
def CauseNotes.clear : CauseNotes := ⟨Flags.clear, Four.all false, false⟩

/-- What a STATUS attempt captured (R180). -/
structure Capture where
  counters : Counters
  flags : Flags
  drift : Four Bool
  errorCode : LineError
  deriving DecidableEq, Repr

/-- The seed of the pseudo-random source (R12, R169): the station number and the first good raw sample after the reset. -/
structure RandomSeed where
  number : BitVec 6
  sample : Option Int
  deriving DecidableEq, Repr

/-- The station settings (segment 0, section 11.2) that blocks read while the station runs. Zones and own hold time are held
by the Shock Monitor (R72). -/
structure StationSettings where
  sampleRateCode : Nat
  fastBus : Bool
  filterDepth : Nat
  settleWindow : Nat
  reportIntervalS : Nat
  forgetTimeMin : Nat
  repeatUnits : Nat
  deferenceUnits : Nat
  holdLimitMin : Nat
  buttonActiveHigh : Four Bool
  deriving DecidableEq, Repr

/-- The settings of one lane (segments 3 to 6, section 11.2) after clamping, with the weighing channels that R173 leaves. -/
structure LaneSettings where
  enabled : Bool
  channels : List ChannelNo
  article : Word
  mask : Word
  pack : Nat
  unitWeight : Nat
  tolerance : Nat
  band : Nat
  capacityKg : Nat
  tare : Nat
  zeroLimit : Nat
  shockKg : Nat
  reorderPoint : Nat
  emptyPoint : Nat
  hysteresis : Nat
  leadTimeMin : Nat
  deriving DecidableEq, Repr

/-- The loaded configuration as the running blocks read it. -/
structure Configuration where
  station : StationSettings
  lanes : Four LaneSettings
  deriving DecidableEq, Repr

/-- Station Control's state. -/
structure StationControl where
  phase : Phase
  clock : Time
  number : BitVec 6
  resetCause : ResetCause
  brownOut : BrownOut
  supplyGood : Bool
  warmUpTimer : Option Time
  joinTimer : Option JoinTimer
  block : List Byte
  config : Option Configuration
  counters : Counters
  flags : Flags
  notes : CauseNotes
  capture : Option Capture
  seed : RandomSeed
  deriving DecidableEq, Repr

/-! ## Acquisition Engine -/

/-- A channel's latest sample (R6). -/
structure Sample where
  raw : Int
  isOver : Bool
  deriving DecidableEq, Repr

/-- A channel record (R8). -/
structure Channel where
  address : BitVec 7
  register : Byte
  zero : Int
  gain : Nat
  state : ChannelState
  failureRun : Nat
  goodRun : Nat
  latest : Option Sample
  result : RoundResult
  deriving DecidableEq, Repr

/-- The channel record after every reset (R8). -/
def Channel.reset : Channel := ⟨0, 0, 0, 1, .idle, 0, 0, none, .none⟩

/-- Whom the transaction in flight serves (R2): a channel of the running round, or the configuration read. -/
inductive BusUser where
  | channel (c : ChannelNo)
  | configRead
  deriving DecidableEq, Repr

/-- Where the transaction stands, and since when: recovering the bus before its START (R2); under way, since its bus check, or for the
configuration read since its last segment pause (R16); or failed with STRETCH and waiting for the clock line (R5). No hold of a stage
can have begun before it. -/
inductive BusStage where
  | recovering (since : Time)
  | underWay (since : Time)
  | stretched (failedAt : Time)
  deriving DecidableEq, Repr

/-- The sensor-bus transaction in flight. -/
structure Transaction where
  user : BusUser
  stage : BusStage
  deriving DecidableEq, Repr

/-- The Acquisition Engine's state. A round is running exactly while the transaction serves a channel (R12). -/
structure Engine where
  channels : Eight Channel
  roundTimer : Option Time
  pendingRound : Bool
  transaction : Option Transaction
  failedAttempts : Nat
  fastBus : Bool
  deriving DecidableEq, Repr

/-- The engine after every reset (R8, R11, R14). -/
def Engine.reset : Engine := ⟨Eight.all Channel.reset, none, false, none, 0, false⟩

/-! ## The lanes -/

/-- A weight in grams with its OVER indication: a gross sample (R21) or a filtered value (R24). -/
structure Weight where
  grams : Int
  isOver : Bool
  deriving DecidableEq, Repr

/-- Motion state; the settled level L is present while SETTLED and absent while MOVING (R27). -/
inductive Motion where
  | moving
  | settled (level : Int)
  deriving DecidableEq, Repr

/-- The lane weighing record (section 2.1). -/
structure Weighing where
  channels : List ChannelNo
  previousGross : Option Int
  filter : List Weight
  window : List Int
  motion : Motion
  settledOver : Bool
  deriving DecidableEq, Repr

/-- The weighing record after every reset (R18). -/
def Weighing.reset : Weighing := ⟨[], none, [], [], .moving, false⟩

/-- The lane count record (section 3.1). -/
structure Counter where
  count : Nat
  confidence : Confidence
  offset : Int
  overload : Bool
  underload : Bool
  drift : Bool
  deriving DecidableEq, Repr

/-- The count record after every reset (R35). -/
def Counter.reset : Counter := ⟨0, .unknown, 0, false, false, false⟩

/-- The lane service record (section 4.1) with its button input pin, debounce count and survey delay (R62, R116). -/
structure Service where
  state : LaneState
  buttonInput : Bool
  debounce : Option Time
  button : ButtonLevel
  press : Press
  holdTimer : Option Time
  flash : Bool
  refuseOrigin : Time
  holdBeatOrigin : Time
  faultBeatOrigin : Time
  reportDue : Bool
  surveyDelay : Option Time
  deriving DecidableEq, Repr

/-- The service record after every reset (R54, R116), with the level the input pin has. -/
def Service.reset (buttonInput : Bool) : Service :=
  ⟨.off, buttonInput, none, .inactive, .none, none, false, Time.zero, Time.zero, Time.zero, false, none⟩

/-- One shelf lane: its Weighing Unit, its Counter and its Service Unit. -/
structure Lane where
  weighing : Weighing
  counter : Counter
  service : Service
  deriving DecidableEq, Repr

/-- A lane after every reset. -/
def Lane.reset (buttonInput : Bool) : Lane := ⟨Weighing.reset, Counter.reset, Service.reset buttonInput⟩

/-! ## Shock Monitor -/

/-- The Shock Monitor record (section 5.1). -/
structure ShockMonitor where
  holdoff : Option Time
  sendInhibit : Option Time
  ownZone : Byte
  neighbours : Four Byte
  holdTime : Nat
  configured : Bool
  deriving DecidableEq, Repr

/-- The Shock Monitor after every reset (R72). -/
def ShockMonitor.reset : ShockMonitor := ⟨none, none, 0, Four.all 0, 1, false⟩

/-! ## Line Controller -/

/-- Receiver states (R86 to R90). IN FRAME holds the frame in reception, its characters so far, and the end of the stop bit of the last
of them (log 12). -/
inductive Receiver where
  | waitIdle
  | ready
  | inFrame (chars : List Byte) (stopEnd : Time)
  | readback
  deriving DecidableEq, Repr

/-- The attempt's stage (section 6.1). -/
inductive AttemptStage where
  | sending
  | jamming
  deriving DecidableEq, Repr

/-- The attempt in progress: the frame formed from the ON LINE entry (R93), when this stage began, and when it ends: the end
of the last stop bit while SENDING, the end of the jam while JAMMING. -/
structure Attempt where
  stage : AttemptStage
  frame : List Byte
  began : Time
  ends : Time
  deriving DecidableEq, Repr

/-- The measurement of the line (R82, R92): busy through the station's own attempt (and after it until the line is idle), busy
otherwise, or idle, with the moment the 24th bit time of HIGH was completed. -/
inductive LineUse where
  | busyOwn
  | busyOther
  | idle (since : Time)
  deriving DecidableEq, Repr

/-- The level at which the line was seen last. -/
inductive LineLevel where
  | low
  | high
  deriving DecidableEq, Repr

/-- The Line Controller record (section 6.1), with the measurement of R82: what the line is taken for, the level seen last, and the end of
the last bit time in which the line was seen LOW, or of the reset (R81). -/
structure LineController where
  state : LineState
  tecCount : Nat
  recCount : Nat
  lastError : LineError
  receiver : Receiver
  attempt : Option Attempt
  stuckSince : Option Time
  secondTimer : Option Time
  use : LineUse
  level : LineLevel
  lowEnd : Time
  deriving DecidableEq, Repr

/-- The Line Controller after every reset (R81): no HIGH time is counted yet at clock 0, where the reset ends (R169). -/
def LineController.reset : LineController :=
  ⟨.active, 0, 0, .none, .waitIdle, none, none, none, .busyOther, .high, Time.zero⟩

/-! ## Transmit Queue -/

/-- A queue entry's kind, owner and body (R105). STOCK is owned by its lane, RAISE and CLEAR by their group, DISTURB by the Shock
Monitor, STATUS and SURVEY by Station Control; a STATUS body is empty until it is captured at an attempt. -/
inductive Body where
  | stock (lane : LaneNo) (article : Word) (pack count : Nat) (state : LaneState) (confidence : Confidence)
  | survey (pairs : List (Word × Word))
  | disturb (zone : Byte) (hold : Nat)
  | raise (group : GroupNo) (key mask : Word) (level : Option Shortage) (quality : Quality) (aggregate reorder : Nat)
  | clear (group : GroupNo) (key mask : Word)
  | status
  deriving DecidableEq, Repr

/-- What an offer and an entry must share to coalesce (R107). -/
inductive Identity where
  | stock (lane : LaneNo)
  | alert (group : GroupNo)
  | disturb
  | status
  | survey
  deriving DecidableEq, Repr

/-- An entry's status (section 7.1). -/
inductive EntryStatus where
  | waiting
  | onLine
  deriving DecidableEq, Repr

/-- A Transmit Queue entry (section 7.1). Its place is its position in the queue, which is kept in order of acceptance (log 14).
`passed` says that the not-before time has passed (R106), `tried` that the first attempt has been made (R92). -/
structure Entry where
  body : Body
  enqueued : Time
  attempts : Nat
  notBefore : Time
  passed : Bool
  status : EntryStatus
  withdraw : Bool
  busySeen : Bool
  tried : Bool
  deriving DecidableEq, Repr

/-! ## Peer View -/

/-- A Peer Stock Table entry (section 8.1). -/
structure PeerEntry where
  sender : Nat
  lane : LaneNo
  article : Word
  pack : Nat
  count : Nat
  state : LaneState
  confidence : Confidence
  arrival : Time
  age : AgeState
  deriving DecidableEq, Repr

/-! ## Groups -/

/-- A group record (section 9.1). -/
structure GroupRecord where
  key : Word
  mask : Word
  parameterLane : LaneNo
  reorderPoint : Nat
  emptyPoint : Nat
  hysteresis : Nat
  leadTimeMin : Nat
  aggregate : Nat
  quality : Quality
  level : Level
  condition : Bool
  suspending : Bool
  previousAggregate : Nat
  rate : Nat
  membershipChanged : Bool
  deriving DecidableEq, Repr

/-- An alert record (section 10.1); its key and mask are those of the group record it stands beside. -/
structure Alert where
  state : AlertState
  level : Option Shortage
  raiser : Option Nat
  raiseSent : Bool
  deference : Option Time
  repeatTimer : Option Time
  watch : Option Time
  takenUntil : Option Time
  terminal : Byte
  origin : Time
  deriving DecidableEq, Repr

/-- A group number's two records: the Group Evaluator's and the Alert Controller's. -/
structure Group where
  record : GroupRecord
  alert : Alert
  deriving DecidableEq, Repr

end Sys2Proof.Machine

namespace Sys2Proof.Machine

/-- The whole machine. -/
structure State where
  station : StationControl
  engine : Engine
  lanes : Four Lane
  shock : ShockMonitor
  line : LineController
  queue : List Entry
  peers : List PeerEntry
  groups : Four (Option Group)
  reportTimer : Option Time
  rateTick : Option Time
  choices : Nat
  pending : List Instr
  deriving DecidableEq, Repr

/-- Why the machine stops. The spec describes no stop of the part; this is the model's own. -/
inductive Fault where
  /-- Raised by the meanings of CONFIG_SEGMENT_END, BODY_LENGTH_TOO_LONG, FRAME_REJECTED and the received frames for operands
  that no event of their row can have (WellFormed.lean): such a command is no event of the part. Safe. -/
  | malformedCommand
  deriving DecidableEq, Repr

/-- Why a command has no meaning. -/
inductive Refusal where
  /-- Raised by exec for a row that has no meaning yet. Safe. -/
  | notModelled (mnemonic : String)
  deriving DecidableEq, Repr

/-- Station Control after a reset (R178, R169) with the recorded cause. The supply-monitor level is an input and is kept. -/
def StationControl.reset (cause : ResetCause) (supplyGood : Bool) : StationControl where
  phase := .reset
  clock := Time.zero
  number := 0
  resetCause := cause
  brownOut := .none
  supplyGood := supplyGood
  warmUpTimer := none
  joinTimer := none
  block := []
  config := none
  counters := Counters.zero
  flags := Flags.clear
  notes := CauseNotes.clear
  capture := none
  seed := ⟨0, none⟩

/-- Every block at its reset values (R178), with the levels of the input pins, the counter of free choices and the waiting
commands given. -/
def State.afterReset (cause : ResetCause) (supplyGood : Bool) (buttons : Four Bool) (choices : Nat) (pending : List Instr) :
    State where
  station := StationControl.reset cause supplyGood
  engine := Engine.reset
  lanes := buttons.map Lane.reset
  shock := ShockMonitor.reset
  line := LineController.reset
  queue := []
  peers := []
  groups := Four.all none
  reportTimer := none
  rateTick := none
  choices := choices
  pending := pending

/-- The machine right after a power-on reset (R169), in phase RESET, with nothing waiting. -/
def State.reset : State := State.afterReset .powerOn true (Four.all false) 0 []

end Sys2Proof.Machine
end

