-- ==== Sys2Proof/Machine/Ops.lean ====
section
/-! DEFINITION. The shared operations: time and timers, free choices, updates of one block, what time does to the line
measurement, and the frame every command runs in. -/

namespace Sys2Proof.Machine

/-! ## Time (00, "Time") -/

/-- A clock value `n` microseconds later; the milliseconds wrap at 32 bits. -/
def Time.addUs (t : Time) (n : Nat) : Time :=
  { ms := t.ms + BitVec.ofNat 32 ((t.us.val + n) / 1000), us := Fin.ofNat 1000 (t.us.val + n) }

/-- A clock value `n` whole milliseconds later, with the same fraction. -/
def Time.addMs (t : Time) (n : Nat) : Time := { t with ms := t.ms + BitVec.ofNat 32 n }

/-- A clock value `n` microseconds earlier. -/
def Time.subUs (t : Time) (n : Nat) : Time :=
  let whole := n / 1000 + 1
  ({ t with ms := t.ms - BitVec.ofNat 32 whole } : Time).addUs (whole * 1000 - n)

/-- The modular difference of the millisecond parts, as a signed 32-bit number (00, "Time"). -/
def Time.msFrom (a b : Time) : Int := (b.ms - a.ms).toInt

/-- The microseconds from `a` on to `b`, or 0 where `b` is earlier. -/
def Time.usUntil (a b : Time) : Nat := (a.msFrom b * 1000 + (b.us.val : Int) - (a.us.val : Int)).toNat

/-- `a` is at or before `b`: by the modular difference of the milliseconds, and where these are equal by the fractions. -/
def Time.notAfter (a b : Time) : Bool :=
  decide (0 < a.msFrom b) || (decide (a.msFrom b = 0) && decide (a.us ≤ b.us))

/-- `a` is before `b`. -/
def Time.before (a b : Time) : Bool := !b.notAfter a

/-- More than `limit` milliseconds have passed since `t`: the first such clock value is `t` plus the limit plus 1 ms (R123, R124;
for R111 log 13). -/
def Time.olderThan (t now : Time) (limit : Nat) : Bool := (t.addMs (limit + 1)).notAfter now

/-- A running timer whose end has been reached: "at the first clock value at or past its end" (00, "Time"). -/
def due (timer : Option Time) (now : Time) : Bool :=
  match timer with
  | some t => t.notAfter now
  | none => false

/-- The bit time of the aisle bus in microseconds (R82). -/
def bitUs : Nat := 8

/-- The station clock. -/
def State.now (s : State) : Time := s.station.clock

/-! ## One block at a time -/

/-- Station Control changed by `f`. -/
def State.updateStation (f : StationControl → StationControl) (s : State) : State := { s with station := f s.station }

/-- The Acquisition Engine changed by `f`. -/
def State.updateEngine (f : Engine → Engine) (s : State) : State := { s with engine := f s.engine }

/-- Channel `c`'s record changed by `f`. -/
def State.updateChannel (c : ChannelNo) (f : Channel → Channel) (s : State) : State :=
  { s with engine := { s.engine with channels := s.engine.channels.set c (f (s.engine.channels.get c)) } }

/-- The Shock Monitor changed by `f`. -/
def State.updateShock (f : ShockMonitor → ShockMonitor) (s : State) : State := { s with shock := f s.shock }

/-- The Line Controller changed by `f`. -/
def State.updateLine (f : LineController → LineController) (s : State) : State := { s with line := f s.line }

/-- Lane `l`. -/
def State.lane (s : State) (l : LaneNo) : Lane := s.lanes.get l

/-- Lane `l` changed by `f`. -/
def State.updateLane (l : LaneNo) (f : Lane → Lane) (s : State) : State :=
  { s with lanes := s.lanes.set l (f (s.lanes.get l)) }

/-- Lane `l`'s service record changed by `f`. -/
def State.updateService (l : LaneNo) (f : Service → Service) (s : State) : State :=
  s.updateLane l fun lane => { lane with service := f lane.service }

/-- Lane `l`'s weighing record changed by `f`. -/
def State.updateWeighing (l : LaneNo) (f : Weighing → Weighing) (s : State) : State :=
  s.updateLane l fun lane => { lane with weighing := f lane.weighing }

/-- Group `g`'s records, if the group exists. -/
def State.group (s : State) (g : GroupNo) : Option Group := s.groups.get g

/-- Group `g`'s records changed by `f`, if the group exists. -/
def State.updateGroup (g : GroupNo) (f : Group → Group) (s : State) : State :=
  { s with groups := s.groups.set g ((s.groups.get g).map f) }

/-- Group `g`'s group record changed by `f`. -/
def State.updateRecord (g : GroupNo) (f : GroupRecord → GroupRecord) (s : State) : State :=
  s.updateGroup g fun gr => { gr with record := f gr.record }

/-! ## Settings -/

/-- The settings of a lane of a station without a configuration: nothing reads them, because every lane is OFF (R54). -/
def LaneSettings.none : LaneSettings :=
  ⟨false, [], 0, 0, 0, 0, 0, 0, 0, 0, 0, 0, 0, 0, 0, 0⟩

/-- The settings of a station without a configuration: nothing reads them, because nothing that uses them has begun. -/
def StationSettings.none : StationSettings :=
  ⟨0, false, 0, 0, 0, 0, 0, 0, 0, Four.all false⟩

/-- Lane `l`'s settings as loaded. -/
def State.laneSettings (s : State) (l : LaneNo) : LaneSettings :=
  match s.station.config with
  | some c => c.lanes.get l
  | none => LaneSettings.none

/-- The station settings as loaded. -/
def State.settings (s : State) : StationSettings :=
  match s.station.config with
  | some c => c.station
  | none => StationSettings.none

/-- The sample period in microseconds: 10, 20, 40 or 80 rounds per second (R11). -/
def StationSettings.samplePeriodUs (c : StationSettings) : Nat :=
  match c.sampleRateCode with
  | 0 => 100000
  | 1 => 50000
  | 2 => 25000
  | _ => 12500

/-- The own station number (R169). -/
def State.number (s : State) : Nat := s.station.number.toNat

/-- A strapped number of 1 to 60 is valid (R169). -/
def validNumber (n : BitVec 6) : Bool := decide (1 ≤ n.toNat) && decide (n.toNat ≤ 60)

/-- The station is in brown-out (R177). -/
def State.inBrownOut (s : State) : Bool :=
  match s.station.brownOut with
  | .none => false
  | .low => true
  | .high _ => true

/-- The station is JOINING. -/
def State.joining (s : State) : Bool := decide (s.station.phase = .joining)

/-! ## Free choices (log 5, log 6, log 7) -/

/-- One free choice is used up. -/
def State.spend (s : State) : State := { s with choices := s.choices + 1 }

/-- `a` put in at place `i` of a list, counted from its head. -/
def insertAt {α : Type} (i : Nat) (a : α) : List α → List α
  | [] => [a]
  | b :: l =>
    match i with
    | 0 => a :: b :: l
    | i + 1 => b :: insertAt i a l

/-- The list in the order that the number `n` picks: every order of the list is picked by some number. -/
def arrange {α : Type} (n : Nat) : List α → List α
  | [] => []
  | a :: l => insertAt (n % (l.length + 1)) a (arrange (n / (l.length + 1)) l)

/-- `f` for every lane, in a free order (R34, R113). -/
def eachLane (f : LaneNo → State → State) (s : State) : State :=
  (arrange (Config.freeOrder s.choices) allLanes).foldl (fun t l => f l t) s.spend

/-- `f` for every group number, in a free order (R137, R144). -/
def eachGroup (f : GroupNo → State → State) (s : State) : State :=
  (arrange (Config.freeOrder s.choices) allGroups).foldl (fun t g => f g t) s.spend

/-- Two effects of one event on different blocks, in a free order. -/
def inEitherOrder (f g : State → State) (s : State) : State :=
  if Config.freeOrder s.choices % 2 = 0 then g (f s.spend) else f (g s.spend)

/-- A random draw in 0 to `range` − 1 and the state after it (00, "Random draws"). -/
def State.draw (range : Nat) (s : State) : Nat × State :=
  ((Config.randomDraw s.station.seed.number s.station.seed.sample s.choices).toNat % range, s.spend)

/-! ## The passing of time -/

/-- The busy-seen mark of every entry enqueued before a busy moment (R92). -/
def markBusySeen (moment : Time) (q : List Entry) : List Entry :=
  q.map fun e => if e.enqueued.before moment then { e with busySeen := true } else e

/-- The station clock moves on by `elapsed` microseconds. A line that has been busy otherwise than through the own attempt was so up
to the last microsecond before the new moment (R92). -/
def passTime (elapsed : Nat) (s : State) : State :=
  let marked :=
    if s.line.use = .busyOther ∧ 0 < elapsed then markBusySeen (s.now.addUs (elapsed - 1)) s.queue else s.queue
  { s with station := { s.station with clock := s.now.addUs elapsed }, queue := marked }

/-- An entry's status is WAITING. -/
def Entry.waiting (e : Entry) : Bool := decide (e.status = .waiting)

/-- The three conditions of the stuck measurement (R99): the line is busy, a WAITING entry is held, no brown-out. -/
def State.stuckConditions (s : State) : Bool :=
  (match s.line.use with
    | .idle _ => false
    | .busyOwn => true
    | .busyOther => true)
  && s.queue.any Entry.waiting && !s.inBrownOut

/-- What follows at once from the state an event leaves: a line that is busy otherwise than through the own attempt marks the
entries enqueued before now (R92), and the stuck measurement starts or stops with its conditions (R99). -/
def keepUp (s : State) : State :=
  let marked := if s.line.use = .busyOther then markBusySeen s.now s.queue else s.queue
  let stuck :=
    if s.stuckConditions then
      (match s.line.stuckSince with
        | some t => some t
        | none => some s.now)
    else none
  { s with queue := marked, line := { s.line with stuckSince := stuck } }

/-- A command's event, after `elapsed` microseconds. In RESET every block holds its reset values and the clock stands at 0
(R169), so no event but those of the reset itself and of the input pins does anything. -/
def timed (elapsed : Nat) (event : State → State) (s : State) : State :=
  if s.station.phase = .reset then s else keepUp (event (passTime elapsed s))

/-- A command with operands that an event of its row can have; any other is no event of the part (log 12). -/
def checked (ok : Bool) (s : State) : Host.Outcome State Fault Refusal :=
  if ok then .next s else .fault .malformedCommand

end Sys2Proof.Machine
end

