-- ==== Sys2Proof/Machine/Flags.lean ====
section
/-! DEFINITION. The diagnostic counters, the latched flags with their cause notes, and the codes of STATUS (R179 to R181, 6.4). -/

namespace Sys2Proof.Machine

/-- The fifteen counters by name. -/
inductive CounterName where
  | unitsPicked | unitsPut | doubtfulSettlements | sensorFailures | roundOverruns | deferrals | singleCollisions
  | multipleCollisions | excessiveCollisionDiscards | lineErrors | framesFilteredOut | tableFullDrops | queueEvictions
  | queueRefusals | refusedGatewayCommands
  deriving DecidableEq, Repr

/-- An increase of a counter or amount that saturates at 65,535 (R179). -/
def saturate (n k : Nat) : Nat := min (n + k) 65535

/-- Counter `name` increased by `k`. -/
def Counters.add (name : CounterName) (k : Nat) (c : Counters) : Counters :=
  match name with
  | .unitsPicked => { c with unitsPicked := saturate c.unitsPicked k }
  | .unitsPut => { c with unitsPut := saturate c.unitsPut k }
  | .doubtfulSettlements => { c with doubtfulSettlements := saturate c.doubtfulSettlements k }
  | .sensorFailures => { c with sensorFailures := saturate c.sensorFailures k }
  | .roundOverruns => { c with roundOverruns := saturate c.roundOverruns k }
  | .deferrals => { c with deferrals := saturate c.deferrals k }
  | .singleCollisions => { c with singleCollisions := saturate c.singleCollisions k }
  | .multipleCollisions => { c with multipleCollisions := saturate c.multipleCollisions k }
  | .excessiveCollisionDiscards => { c with excessiveCollisionDiscards := saturate c.excessiveCollisionDiscards k }
  | .lineErrors => { c with lineErrors := saturate c.lineErrors k }
  | .framesFilteredOut => { c with framesFilteredOut := saturate c.framesFilteredOut k }
  | .tableFullDrops => { c with tableFullDrops := saturate c.tableFullDrops k }
  | .queueEvictions => { c with queueEvictions := saturate c.queueEvictions k }
  | .queueRefusals => { c with queueRefusals := saturate c.queueRefusals k }
  | .refusedGatewayCommands => { c with refusedGatewayCommands := saturate c.refusedGatewayCommands k }

/-- The counters' values in the order of the STATUS table (6.4). -/
def Counters.values (c : Counters) : List Nat :=
  [c.unitsPicked, c.unitsPut, c.doubtfulSettlements, c.sensorFailures, c.roundOverruns, c.deferrals, c.singleCollisions,
    c.multipleCollisions, c.excessiveCollisionDiscards, c.lineErrors, c.framesFilteredOut, c.tableFullDrops, c.queueEvictions,
    c.queueRefusals, c.refusedGatewayCommands]

/-- Each counter less its captured value (R181). -/
def Counters.less (c captured : Counters) : Counters where
  unitsPicked := c.unitsPicked - captured.unitsPicked
  unitsPut := c.unitsPut - captured.unitsPut
  doubtfulSettlements := c.doubtfulSettlements - captured.doubtfulSettlements
  sensorFailures := c.sensorFailures - captured.sensorFailures
  roundOverruns := c.roundOverruns - captured.roundOverruns
  deferrals := c.deferrals - captured.deferrals
  singleCollisions := c.singleCollisions - captured.singleCollisions
  multipleCollisions := c.multipleCollisions - captured.multipleCollisions
  excessiveCollisionDiscards := c.excessiveCollisionDiscards - captured.excessiveCollisionDiscards
  lineErrors := c.lineErrors - captured.lineErrors
  framesFilteredOut := c.framesFilteredOut - captured.framesFilteredOut
  tableFullDrops := c.tableFullDrops - captured.tableFullDrops
  queueEvictions := c.queueEvictions - captured.queueEvictions
  queueRefusals := c.queueRefusals - captured.queueRefusals
  refusedGatewayCommands := c.refusedGatewayCommands - captured.refusedGatewayCommands

/-- A diagnostic counter of the station increases by `k`. -/
def State.count (name : CounterName) (k : Nat) (s : State) : State :=
  s.updateStation fun st => { st with counters := st.counters.add name k }

/-- The latched flags by name (11.6). -/
inductive FlagName where
  | configAdjusted | sensorBusFault | numberClash | lineStuck | listenOnlyEntered
  deriving DecidableEq, Repr

/-- Flag `name` set. -/
def Flags.raise (name : FlagName) (f : Flags) : Flags :=
  match name with
  | .configAdjusted => { f with configAdjusted := true }
  | .sensorBusFault => { f with sensorBusFault := true }
  | .numberClash => { f with numberClash := true }
  | .lineStuck => { f with lineStuck := true }
  | .listenOnlyEntered => { f with listenOnlyEntered := true }

/-- Flag `name`. -/
def Flags.get (name : FlagName) (f : Flags) : Bool :=
  match name with
  | .configAdjusted => f.configAdjusted
  | .sensorBusFault => f.sensorBusFault
  | .numberClash => f.numberClash
  | .lineStuck => f.lineStuck
  | .listenOnlyEntered => f.listenOnlyEntered

/-- A latched flag is set, and with it the note that its cause has acted (R179). -/
def State.latch (name : FlagName) (s : State) : State :=
  s.updateStation fun st =>
    { st with flags := st.flags.raise name, notes := { st.notes with flags := st.notes.flags.raise name } }

/-- Lane `l`'s Lane Counter tells Station Control that it has set DRIFT (11.6). -/
def State.noteDrift (l : LaneNo) (s : State) : State :=
  s.updateStation fun st => { st with notes := { st.notes with drift := st.notes.drift.set l true } }

/-- A flag after a sent STATUS: cleared if it was captured set and its note is still clear (R181). -/
def keepFlag (flag captured note : Bool) : Bool := flag && !(captured && !note)

/-- The station's flags after a sent STATUS (R181). -/
def Flags.keep (f captured notes : Flags) : Flags where
  configAdjusted := keepFlag f.configAdjusted captured.configAdjusted notes.configAdjusted
  sensorBusFault := keepFlag f.sensorBusFault captured.sensorBusFault notes.sensorBusFault
  numberClash := keepFlag f.numberClash captured.numberClash notes.numberClash
  lineStuck := keepFlag f.lineStuck captured.lineStuck notes.lineStuck
  listenOnlyEntered := keepFlag f.listenOnlyEntered captured.listenOnlyEntered notes.listenOnlyEntered

/-- The last line error code after a sent STATUS (R181): NONE if it was captured other than NONE and its note is still clear. -/
def keepCode (code captured : LineError) (note : Bool) : LineError :=
  if captured ≠ .none ∧ note = false then .none else code

/-- What a sent STATUS carried is taken off (R181). -/
def statusReduction (s : State) : State :=
  match s.station.capture with
  | none => s
  | some c =>
    let notes := s.station.notes
    let drift (l : LaneNo) (lane : Lane) : Lane :=
      { lane with counter := { lane.counter with drift := keepFlag lane.counter.drift (c.drift.get l) (notes.drift.get l) } }
    { s with
      station := { s.station with
        counters := s.station.counters.less c.counters
        flags := s.station.flags.keep c.flags notes.flags }
      lanes := Four.of fun l => drift l (s.lanes.get l)
      line := { s.line with lastError := keepCode s.line.lastError c.errorCode notes.errorCode } }

/-- The capture at the beginning of a STATUS attempt, which also clears every cause note (R180). -/
def captureStatus (s : State) : State :=
  s.updateStation fun st =>
    { st with
      capture := some
        { counters := st.counters
          flags := st.flags
          drift := s.lanes.map fun lane => lane.counter.drift
          errorCode := s.line.lastError }
      notes := CauseNotes.clear }

end Sys2Proof.Machine
end

