-- ==== Sys2Proof/Machine/Operands.lean ====
section
/-! DEFINITION. The bytes of frames: the check word (R85), the code tables of 6.4, how a received frame is judged (R87, R88) and
how a frame to be sent is formed (R84, R93). -/

namespace Sys2Proof.Machine

/-! ## Bytes -/

/-- A 16-bit field, most significant byte first (00, "Byte order"). -/
def number16 (a b : Byte) : Nat := a.toNat * 256 + b.toNat

/-- A 24-bit field, most significant byte first. -/
def number24 (a b c : Byte) : Nat := a.toNat * 65536 + b.toNat * 256 + c.toNat

/-- A 32-bit field, most significant byte first. -/
def word32 (a b c d : Byte) : Word := a ++ b ++ c ++ d

/-- A number as 2 bytes, most significant first. -/
def bytes16 (n : Nat) : List Byte := [BitVec.ofNat 8 (n / 256), BitVec.ofNat 8 n]

/-- A number as 3 bytes, most significant first. -/
def bytes24 (n : Nat) : List Byte := [BitVec.ofNat 8 (n / 65536), BitVec.ofNat 8 (n / 256), BitVec.ofNat 8 n]

/-- A word as 4 bytes, most significant first. -/
def bytes32 (w : Word) : List Byte :=
  [w.extractLsb' 24 8, w.extractLsb' 16 8, w.extractLsb' 8 8, w.extractLsb' 0 8]

/-- A signed 24-bit two's complement number, most significant byte first (R6). -/
def signed24 (a b c : Byte) : Int :=
  if number24 a b c < 8388608 then (number24 a b c : Int) else (number24 a b c : Int) - 16777216

/-! ## The check word (R85, R15) -/

/-- One message bit: the register is shifted left by one place and, if the bit shifted out differs from the message bit, combined
with 0x1021 by exclusive OR. -/
def checkBit (register : BitVec 16) (bit : Bool) : BitVec 16 :=
  if register.msb != bit then (register <<< 1) ^^^ 0x1021#16 else register <<< 1

/-- One byte, most significant bit first. -/
def checkByte (register : BitVec 16) (b : Byte) : BitVec 16 :=
  [7, 6, 5, 4, 3, 2, 1, 0].foldl (fun r i => checkBit r (b.getLsbD i)) register

/-- The register after the bytes, from 0xFFFF, with no final inversion. -/
def checkWord (bytes : List Byte) : BitVec 16 := bytes.foldl checkByte 0xFFFF#16

/-- A check word as its two characters, high byte first. -/
def checkChars (w : BitVec 16) : List Byte := [w.extractLsb' 8 8, w.extractLsb' 0 8]

/-! ## Codes (6.4) -/

/-- Lane state codes. -/
def LaneState.code : LaneState → Nat
  | .off => 0
  | .starting => 1
  | .inService => 2
  | .held => 3
  | .resuming => 4
  | .fault => 5

/-- The lane state of a STOCK's state code, 2 to 5 (R102). -/
def stockState (code : Nat) : Option LaneState :=
  match code with
  | 2 => some .inService
  | 3 => some .held
  | 4 => some .resuming
  | 5 => some .fault
  | _ => none

/-- Confidence codes. -/
def Confidence.code : Confidence → Nat
  | .sure => 0
  | .doubtful => 1
  | .unknown => 2

/-- The confidence of a code, 0 to 2. -/
def confidenceOf (code : Nat) : Option Confidence :=
  match code with
  | 0 => some .sure
  | 1 => some .doubtful
  | 2 => some .unknown
  | _ => none

/-- Level codes. -/
def Shortage.code : Shortage → Nat
  | .low => 1
  | .empty => 2

/-- The level of a code, 1 or 2. -/
def shortageOf (code : Nat) : Option Shortage :=
  match code with
  | 1 => some .low
  | 2 => some .empty
  | _ => none

/-- Quality codes. -/
def Quality.code : Quality → Nat
  | .sure => 0
  | .doubtful => 1
  | .indeterminate => 2

/-- Channel state codes. -/
def ChannelState.code : ChannelState → Nat
  | .idle => 0
  | .ok => 1
  | .suspect => 2
  | .faulted => 3

/-- Last line error codes. -/
def LineError.code : LineError → Nat
  | .none => 0
  | .framing => 1
  | .length => 2
  | .check => 3
  | .kind => 4

/-- Last reset cause codes. -/
def ResetCause.code : ResetCause → Nat
  | .powerOn => 0
  | .resetInput => 1
  | .restart => 2

/-- The nine frame kinds. -/
inductive FrameKind where
  | stock | survey | disturb | raise | clear | take | query | status | restart
  deriving DecidableEq, Repr

/-- Kind codes. -/
def FrameKind.code : FrameKind → Byte
  | .stock => 0x21#8
  | .survey => 0x22#8
  | .disturb => 0x30#8
  | .raise => 0x41#8
  | .clear => 0x42#8
  | .take => 0x51#8
  | .query => 0x61#8
  | .status => 0x62#8
  | .restart => 0x6F#8

/-- The kind of a code, if it is one of the nine. -/
def kindOf (code : Byte) : Option FrameKind :=
  [FrameKind.stock, .survey, .disturb, .raise, .clear, .take, .query, .status, .restart].find? fun k => k.code == code

/-! ## Received frames -/

/-- The body of a good frame, with its fields as carried (6.4); bits the tables do not name are dropped here. -/
inductive RxBody where
  | stock (lane : Nat) (article : Word) (pack count stateCode confidenceCode : Nat)
  | survey (pairs : List (Word × Word))
  | disturb (zone : Byte) (hold : Nat)
  | raise (key mask : Word) (levelCode qualityCode aggregate reorder : Nat)
  | clear (key mask : Word)
  | take (key mask : Word) (terminal : Byte) (duration : Nat)
  | query (target : Nat)
  | status
  | restart (target : Nat)
  deriving DecidableEq, Repr

/-- The pairs of a SURVEY: 8 bytes each, key first. -/
def surveyPairs : List Byte → Option (List (Word × Word))
  | [] => some []
  | a :: b :: c :: d :: e :: f :: g :: h :: rest =>
    (surveyPairs rest).map fun l => (word32 a b c d, word32 e f g h) :: l
  | _ => none

/-- The body of a frame of the kind, if its length (and for SURVEY its count m) is the one of 6.4 (R88, test 3). -/
def readBody (kind : FrameKind) (body : List Byte) : Option RxBody :=
  match kind with
  | .stock =>
    match body with
    | [l, a, b, c, d, p, m, n, x] =>
      some (.stock l.toNat (word32 a b c d) p.toNat (number16 m n) (x.toNat / 32) (x.toNat / 8 % 4))
    | _ => none
  | .survey =>
    match body with
    | m :: rest =>
      if 1 ≤ m.toNat ∧ m.toNat ≤ 4 ∧ rest.length = 8 * m.toNat then (surveyPairs rest).map .survey else none
    | [] => none
  | .disturb =>
    match body with
    | [z, h] => some (.disturb z h.toNat)
    | _ => none
  | .raise =>
    match body with
    | [a, b, c, d, e, f, g, h, x, i, j, k, m, n] =>
      some (.raise (word32 a b c d) (word32 e f g h) (x.toNat / 64) (x.toNat % 4) (number24 i j k) (number16 m n))
    | _ => none
  | .clear =>
    match body with
    | [a, b, c, d, e, f, g, h] => some (.clear (word32 a b c d) (word32 e f g h))
    | _ => none
  | .take =>
    match body with
    | [a, b, c, d, e, f, g, h, t, m] => some (.take (word32 a b c d) (word32 e f g h) t m.toNat)
    | _ => none
  | .query =>
    match body with
    | [t] => some (.query t.toNat)
    | _ => none
  | .status => if body.length = 40 then some .status else none
  | .restart =>
    match body with
    | [t] => some (.restart t.toNat)
    | _ => none

/-- How a complete frame is judged (R88). `incomplete` means that the characters are no complete frame (R87). -/
inductive Verdict where
  | incomplete
  | error (e : LineError)
  | good (sender : Nat) (body : RxBody)
  deriving DecidableEq, Repr

/-- The judgement of the characters after the mark (R88): the check word, then the kind, then the length. -/
def judge (chars : List Byte) : Verdict :=
  match chars with
  | sender :: kind :: length :: rest =>
    if length.toNat ≤ 40 ∧ rest.length = length.toNat + 2 then
      if rest.drop length.toNat = checkChars (checkWord (sender :: kind :: length :: rest.take length.toNat)) then
        match kindOf kind with
        | none => .error .kind
        | some k =>
          match readBody k (rest.take length.toNat) with
          | none => .error .length
          | some b => .good sender.toNat b
      else .error .check
    else .incomplete
  | _ => .incomplete

/-! ## Operands that an event can have (log 12) -/

/-- A CONFIG_SEGMENT_END brings the 32 bytes of one segment (R16). -/
def segmentOk (bytes : List Byte) : Bool := decide (bytes.length = 32)

/-- A hold of the configuration read comes with the bytes of one segment at most: all 32 of them where it falls at the clock release after
the segment's pause or before the STOP that follows (R15, R16). -/
def receivedOk (received : List Byte) : Bool := decide (received.length ≤ 32)

/-- The characters after the mark are the beginning of a frame that is not complete and whose length, if it is there, is legal (R87). -/
def isBeginning (chars : List Byte) : Bool :=
  match chars with
  | _ :: _ :: length :: rest => decide (length.toNat ≤ 40) && decide (rest.length < length.toNat + 2)
  | _ => true

/-- A gap ends a frame that is not complete in its 21st bit time (R87), which follows 160 µs of HIGH after the stop bit. -/
def gapOk (chars : List Byte) (gap : Nat) : Bool := isBeginning chars && decide (160 < gap) && decide (gap ≤ 168)

/-- A BODY_LENGTH_TOO_LONG brings a length character above 40 (R87). -/
def tooLongOk (length : Byte) : Bool := decide (40 < length.toNat)

/-- A FRAME_REJECTED brings a complete frame that fails one of the tests of R88. -/
def rejectedOk (chars : List Byte) : Bool :=
  match judge chars with
  | .error _ => true
  | .incomplete => false
  | .good _ _ => false

/-- The characters are a good frame whose body passes `test` (R88). -/
def goodOk (test : RxBody → Bool) (chars : List Byte) : Bool :=
  match judge chars with
  | .good _ body => test body
  | .incomplete => false
  | .error _ => false

/-- A STOCK body. -/
def RxBody.isStock : RxBody → Bool
  | .stock _ _ _ _ _ _ => true
  | _ => false

/-- A SURVEY body. -/
def RxBody.isSurvey : RxBody → Bool
  | .survey _ => true
  | _ => false

/-- A DISTURB body. -/
def RxBody.isDisturb : RxBody → Bool
  | .disturb _ _ => true
  | _ => false

/-- A RAISE body. -/
def RxBody.isRaise : RxBody → Bool
  | .raise _ _ _ _ _ _ => true
  | _ => false

/-- A CLEAR body. -/
def RxBody.isClear : RxBody → Bool
  | .clear _ _ => true
  | _ => false

/-- A TAKE body with a duration of 1 to 255 (R160). -/
def RxBody.isTake : RxBody → Bool
  | .take _ _ _ duration => decide (duration ≠ 0)
  | _ => false

/-- A TAKE body with a duration of 0, a release (R161). -/
def RxBody.isRelease : RxBody → Bool
  | .take _ _ _ duration => decide (duration = 0)
  | _ => false

/-- A QUERY body. -/
def RxBody.isQuery : RxBody → Bool
  | .query _ => true
  | _ => false

/-- A RESTART body. -/
def RxBody.isRestart : RxBody → Bool
  | .restart _ => true
  | _ => false

/-- A STATUS body. -/
def RxBody.isStatus : RxBody → Bool
  | .status => true
  | _ => false

/-! ## Frames to be sent -/

/-- The kind of an entry. -/
def Body.kind : Body → FrameKind
  | .stock _ _ _ _ _ _ => .stock
  | .survey _ => .survey
  | .disturb _ _ => .disturb
  | .raise _ _ _ _ _ _ _ => .raise
  | .clear _ _ _ => .clear
  | .status => .status

/-- Lane state in bits 7 to 5 and confidence in bits 4 to 3 (6.4). -/
def stateByte (state : LaneState) (confidence : Confidence) : Nat := state.code * 32 + confidence.code * 8

/-- The body bytes of an entry (6.4). A STATUS body is supplied at the attempt (R93), so it has none here. -/
def Body.bytes : Body → List Byte
  | .stock lane article pack count state confidence =>
    BitVec.ofNat 8 lane.val :: bytes32 article ++ BitVec.ofNat 8 pack :: bytes16 count
      ++ [BitVec.ofNat 8 (stateByte state confidence)]
  | .survey pairs => BitVec.ofNat 8 pairs.length :: pairs.flatMap fun p => bytes32 p.1 ++ bytes32 p.2
  | .disturb zone hold => [zone, BitVec.ofNat 8 hold]
  | .raise _ key mask level quality aggregate reorder =>
    bytes32 key ++ bytes32 mask
      ++ BitVec.ofNat 8 ((match level with | some l => l.code | none => 0) * 64 + quality.code) :: bytes24 aggregate
      ++ bytes16 reorder
  | .clear _ key mask => bytes32 key ++ bytes32 mask
  | .status => []

/-- One bit of a status byte. -/
def bitAt (place : Nat) (b : Bool) : Nat := if b then 2 ^ place else 0

/-- Four channel states in a byte, the first in bits 7 to 6 (6.4). -/
def channelByte (a b c d : Channel) : Byte :=
  BitVec.ofNat 8 (a.state.code * 64 + b.state.code * 16 + c.state.code * 4 + d.state.code)

/-- A lane's byte of STATUS (6.4). -/
def laneByte (lane : Lane) : Byte :=
  BitVec.ofNat 8 (stateByte lane.service.state lane.counter.confidence + bitAt 2 lane.counter.overload
    + bitAt 1 lane.counter.underload + bitAt 0 lane.counter.drift)

/-- The STATUS body built from the state as it stands (R180, the STATUS table of 6.4). -/
def statusBytes (s : State) : List Byte :=
  let st := s.station
  let ch := s.engine.channels
  [ BitVec.ofNat 8 (bitAt 7 (decide (st.phase = .configFault)) + bitAt 6 st.flags.configAdjusted
      + bitAt 5 st.flags.sensorBusFault + bitAt 4 st.flags.listenOnlyEntered + bitAt 3 (decide (st.phase = .joining))
      + bitAt 2 st.flags.numberClash + st.resetCause.code),
    BitVec.ofNat 8 s.line.tecCount,
    BitVec.ofNat 8 s.line.recCount,
    BitVec.ofNat 8 (bitAt 7 st.flags.lineStuck + s.line.lastError.code),
    laneByte s.lanes.at0, laneByte s.lanes.at1, laneByte s.lanes.at2, laneByte s.lanes.at3,
    channelByte ch.at0 ch.at1 ch.at2 ch.at3,
    channelByte ch.at4 ch.at5 ch.at6 ch.at7 ]
    ++ st.counters.values.flatMap bytes16

/-- A frame's characters (R84): mark, sender, kind, length, body and the check word over all but the mark. -/
def frameChars (sender : Nat) (kind : FrameKind) (body : List Byte) : List Byte :=
  let covered := BitVec.ofNat 8 sender :: kind.code :: BitVec.ofNat 8 body.length :: body
  0xC5#8 :: covered ++ checkChars (checkWord covered)

/-! ## Bits of the aisle bus (R82) -/

/-- The ten bits of a character, HIGH as true (R82): a LOW start bit, the data bits least significant first, a HIGH stop bit. -/
def characterBits (b : Byte) : List Bool :=
  false :: [0, 1, 2, 3, 4, 5, 6, 7].map (fun i => b.getLsbD i) ++ [true]

/-- The bits of a frame's characters, sent back to back (R82). -/
def frameBits (frame : List Byte) : List Bool := frame.flatMap characterBits

/-- How many bit times a character is HIGH at its end before its stop bit (R82): its highest data bits that are 1. -/
def highTail (b : Byte) : Nat := ([7, 6, 5, 4, 3, 2, 1, 0].takeWhile fun i => b.getLsbD i).length

/-- The end of the last LOW bit time that begins before `us`, in microseconds from the first bit; a bit time cut off ends at `us`. -/
def lastLowUs (bits : List Bool) (us : Nat) : Option Nat :=
  (bits.zipIdx.filter fun p => !p.1 && decide (bitUs * p.2 < us)).getLast?.map fun p => min (bitUs * (p.2 + 1)) us

/-! ## Frames of entries -/

/-- The body bytes that an attempt of the entry carries (R93): for STATUS those of the state as it stands. -/
def State.bodyBytes (s : State) (b : Body) : List Byte :=
  match b with
  | .status => statusBytes s
  | .stock lane article pack count state confidence => (Body.stock lane article pack count state confidence).bytes
  | .survey pairs => (Body.survey pairs).bytes
  | .disturb zone hold => (Body.disturb zone hold).bytes
  | .raise group key mask level quality aggregate reorder =>
    (Body.raise group key mask level quality aggregate reorder).bytes
  | .clear group key mask => (Body.clear group key mask).bytes

/-- The frame of an attempt of the entry (R84, R93). -/
def State.frameOf (s : State) (b : Body) : List Byte := frameChars s.number b.kind (s.bodyBytes b)

end Sys2Proof.Machine
end

