-- ==== Sys2Proof/Machine/Queue.lean ====
section
/-! DEFINITION. The Transmit Queue and the lanes' reports (07, R104 to R116). -/

namespace Sys2Proof.Machine

/-! ## Entries -/

/-- The class of a kind (R105): 0 is best. -/
def FrameKind.priority : FrameKind → Nat
  | .raise => 0
  | .clear => 0
  | .disturb => 1
  | .status => 2
  | .stock => 3
  | .survey => 3
  | .take => 3
  | .query => 3
  | .restart => 3

/-- The class of an entry (R105). -/
def Body.priority (b : Body) : Nat := b.kind.priority

/-- What a body must share with a WAITING entry to be folded into it (R107). -/
def Body.identity : Body → Identity
  | .stock lane _ _ _ _ _ => .stock lane
  | .survey _ => .survey
  | .disturb _ _ => .disturb
  | .raise group _ _ _ _ _ _ => .alert group
  | .clear group _ _ => .alert group
  | .status => .status

/-- A new entry's values (R104). Its not-before time is now, so it is eligible at once. -/
def Entry.new (b : Body) (now : Time) : Entry where
  body := b
  enqueued := now
  attempts := 0
  notBefore := now
  passed := true
  status := .waiting
  withdraw := false
  busySeen := false
  tried := false

/-- The entry is a WAITING one of the identity. -/
def Entry.waitsFor (e : Entry) (i : Identity) : Bool := e.waiting && decide (e.body.identity = i)

/-- A waiting entry takes an offer of its own identity (the table of R107). -/
def Entry.coalesce (e : Entry) (b : Body) (now : Time) : Entry :=
  match b with
  | .stock _ _ _ _ _ _ => { e with body := b }
  | .raise _ _ _ _ _ _ _ => { e with body := b }
  | .clear _ _ _ => { e with body := b }
  | .disturb _ _ => { e with body := b, enqueued := now, busySeen := false }
  | .status => e
  | .survey _ => e

/-- The queue after an offer that coalesces (R107). -/
def coalesceInto (b : Body) (now : Time) (q : List Entry) : List Entry :=
  q.map fun e => if e.waitsFor b.identity then e.coalesce b now else e

/-- The last item of a list that passes a test, and the list without it. -/
def takeLast {α : Type} (test : α → Bool) : List α → Option (α × List α)
  | [] => none
  | a :: l =>
    match takeLast test l with
    | some (b, rest) => some (b, a :: rest)
    | none => if test a then some (a, l) else none

/-- The entry that gives way to an offer of class `c` in a full queue (R108): of the WAITING entries of worse class, the newest of
the worst class present. -/
def victim (c : Nat) (q : List Entry) : Option (Entry × List Entry) :=
  [3, 2, 1].findSome? fun k =>
    if c < k then takeLast (fun e => e.waiting && decide (e.body.priority = k)) q else none

/-! ## Lane reports (R113, R114) -/

/-- A lane in this state offers its report (R67, R113). -/
def LaneState.offers : LaneState → Bool
  | .off => false
  | .starting => false
  | .inService => true
  | .held => true
  | .resuming => true
  | .fault => true

/-- The STOCK body of a lane, from its record as it stands (R114). -/
def State.stockBody (s : State) (l : LaneNo) : Body :=
  .stock l (s.laneSettings l).article (s.laneSettings l).pack (s.lane l).counter.count (s.lane l).service.state
    (s.lane l).counter.confidence

/-- An offer of class 3 meets the queue: it coalesces or becomes a new entry, and with 8 entries it is refused and counted, because
no class is worse (R107, R108). The Bool says whether the queue took it. -/
def offerOrRefuse (b : Body) (s : State) : Bool × State :=
  if s.queue.any fun e => e.waitsFor b.identity then
    (true, { s with queue := coalesceInto b s.now s.queue })
  else if s.queue.length < 8 then
    (true, { s with queue := s.queue ++ [Entry.new b s.now] })
  else (false, s.count .queueRefusals 1)

/-- A lane with its flag set offers its report; the flag is cleared when the queue takes it (R113). -/
def laneOffer (l : LaneNo) (s : State) : State :=
  if (s.lane l).service.reportDue && (s.lane l).service.state.offers then
    match offerOrRefuse (s.stockBody l) s with
    | (true, t) => t.updateService l fun sv => { sv with reportDue := false }
    | (false, t) => t
  else s

/-- A cause sets a lane's report-due flag, and the lane offers (R67, R113). -/
def laneReport (l : LaneNo) (s : State) : State :=
  laneOffer l (s.updateService l fun sv => { sv with reportDue := true })

/-- Room is announced: every lane with a set flag offers, in a free order (R112, R113). -/
def announceRoom (s : State) : State := eachLane laneOffer s

/-! ## Offers of the other owners -/

/-- Station Control learns that its SURVEY was sent or counts as discarded: the end of JOINING is timed from now (R112, R175). -/
def surveySettled (s : State) : State :=
  s.updateStation fun st =>
    match st.joinTimer with
    | some ⟨entered, .offered⟩ => { st with joinTimer := some ⟨entered, .settled s.now⟩ }
    | some ⟨entered, .notOffered⟩ => { st with joinTimer := some ⟨entered, .notOffered⟩ }
    | some ⟨entered, .settled t⟩ => { st with joinTimer := some ⟨entered, .settled t⟩ }
    | none => st

/-- The owner of an evicted entry is told (R112): a lane's report is due again and it offers at once, a SURVEY is taken as
discarded. No other entry can be evicted (the note of R108). -/
def tellEvicted (b : Body) (s : State) : State :=
  match b with
  | .stock lane _ _ _ _ _ => laneReport lane s
  | .survey _ => surveySettled s
  | .disturb _ _ => s
  | .raise _ _ _ _ _ _ _ => s
  | .clear _ _ _ => s
  | .status => s

/-- An offer of a RAISE, a CLEAR, a DISTURB or a STATUS (R107, R108): it coalesces, becomes a new entry, evicts the newest entry of
the worst class, or is refused. -/
def offer (b : Body) (s : State) : State :=
  if s.queue.any fun e => e.waitsFor b.identity then
    { s with queue := coalesceInto b s.now s.queue }
  else if s.queue.length < 8 then
    { s with queue := s.queue ++ [Entry.new b s.now] }
  else
    match victim b.priority s.queue with
    | some (out, rest) =>
      tellEvicted out.body (State.count .queueEvictions 1 { s with queue := rest ++ [Entry.new b s.now] })
    | none => s.count .queueRefusals 1

/-- Station Control's SURVEY: a refusal counts as a discard (R112, R175). -/
def offerSurvey (pairs : List (Word × Word)) (s : State) : State :=
  match offerOrRefuse (.survey pairs) s with
  | (true, t) => t
  | (false, t) => surveySettled t

/-! ## Withdrawal (R109) -/

/-- A RAISE of the group. -/
def Body.isRaiseOf (g : GroupNo) : Body → Bool
  | .raise group _ _ _ _ _ _ => decide (group = g)
  | _ => false

/-- The withdraw mark of the group's ON LINE RAISE, if there is one. -/
def markWithdrawn (g : GroupNo) (q : List Entry) : List Entry :=
  q.map fun e => if !e.waiting && e.body.isRaiseOf g then { e with withdraw := true } else e

/-- A WAITING RAISE of the group. -/
def Entry.waitingRaise (g : GroupNo) (e : Entry) : Bool := e.waiting && e.body.isRaiseOf g

/-- The Alert Controller asks for the withdrawal of the group's RAISE (the table of R109). A removal announces room (R112). -/
def withdrawRaise (g : GroupNo) (s : State) : State :=
  let marked := markWithdrawn g s.queue
  if marked.any (Entry.waitingRaise g) then
    announceRoom { s with queue := marked.filter fun e => !e.waitingRaise g }
  else { s with queue := marked }

/-! ## The ON LINE entry comes back (R110, R111) -/

/-- A DISTURB that has waited longer than its own hold (R111). -/
def Entry.expired (now : Time) (e : Entry) : Bool :=
  match e.body with
  | .disturb _ hold => e.enqueued.olderThan now (hold * 100)
  | .stock _ _ _ _ _ _ => false
  | .survey _ => false
  | .raise _ _ _ _ _ _ _ => false
  | .clear _ _ _ => false
  | .status => false

/-- The ON LINE entry of the queue. -/
def onLineEntry (q : List Entry) : Option Entry := q.find? fun e => !e.waiting

/-- The queue without its ON LINE entry. -/
def dropOnLine (q : List Entry) : List Entry := q.filter Entry.waiting

/-- The ON LINE entry changed by `f`. -/
def updateOnLine (f : Entry → Entry) (q : List Entry) : List Entry := q.map fun e => if e.waiting then e else f e

/-- The ON LINE entry leaves the line without being sent and returns to WAITING, changed by `f`. It is removed if its withdraw mark
is set, if a newer entry of its identity waits (R110), or if it is a DISTURB past its expiry (R111). -/
def returnEntry (f : Entry → Entry) (s : State) : State :=
  match onLineEntry s.queue with
  | none => s
  | some e =>
    if e.withdraw || (s.queue.any fun o => o.waitsFor e.body.identity) || e.expired s.now then
      announceRoom { s with queue := dropOnLine s.queue }
    else { s with queue := updateOnLine (fun o => { f o with status := .waiting }) s.queue }

/-- A WAITING DISTURB past its expiry is removed (R111). -/
def removeExpired (s : State) : State :=
  let gone (e : Entry) : Bool := e.waiting && e.expired s.now
  if s.queue.any gone then announceRoom { s with queue := s.queue.filter fun e => !gone e } else s

/-- The not-before times that have passed (R106): the entries become eligible. -/
def notBeforeReached (s : State) : State :=
  { s with queue := s.queue.map fun e => if e.waiting && e.notBefore.notAfter s.now then { e with passed := true } else e }

/-- An entry is eligible when it is WAITING and its not-before time has passed (R106). -/
def Entry.eligible (e : Entry) : Bool := e.waiting && e.passed

/-- The best eligible entry (R106): the lowest class, and of that class the earliest place. -/
def bestEligible (q : List Entry) : Option Entry :=
  [0, 1, 2, 3].findSome? fun k => q.find? fun e => e.eligible && decide (e.body.priority = k)

/-- The first entry of the queue that passes a test, changed by `f`. -/
def updateFirst (test : Entry → Bool) (f : Entry → Entry) : List Entry → List Entry
  | [] => []
  | e :: q => if test e then f e :: q else e :: updateFirst test f q

/-- The best eligible entry goes ON LINE (R93), and its first attempt is noted (R92). -/
def putOnLine (q : List Entry) : List Entry :=
  match bestEligible q with
  | none => q
  | some b =>
    updateFirst (fun e => e.eligible && decide (e.body.priority = b.body.priority))
      (fun e => { e with status := .onLine, tried := true }) q

end Sys2Proof.Machine
end

