-- ==== Sys2Proof/Machine/Alerts.lean ====
section
/-! DEFINITION. The Alert Controller (10, R146 to R168). -/

namespace Sys2Proof.Machine

/-! ## Lamp patterns of a group (R69) -/

/-- Lamp patterns (R68). -/
inductive Pattern where
  | dark | steady | fast | slow | faultBeat | holdBeat | refuse
  deriving DecidableEq, Repr

/-- The group pattern of an alert record (R69). -/
def Alert.pattern (a : Alert) : Pattern :=
  match a.state, a.level with
  | .raised, some .low => .steady
  | .raised, some .empty => .fast
  | .raised, none => .dark
  | .following, some .low => .steady
  | .following, some .empty => .fast
  | .following, none => .dark
  | .taken, _ => .slow
  | .clear, _ => .dark
  | .pending, _ => .dark
  | .suspended, _ => .dark

/-- An alert record after an event: the pattern origin becomes now when the pattern has become FAST or SLOW from any other (10.1). -/
def Alert.withOrigin (before after : Alert) (now : Time) : Alert :=
  if (after.pattern = .fast ∨ after.pattern = .slow) ∧ after.pattern ≠ before.pattern then { after with origin := now }
  else after

/-- Group `g`'s alert record changed by `f`, with its pattern origin kept up (10.1, R69). -/
def State.updateAlert (g : GroupNo) (f : Alert → Alert) (s : State) : State :=
  s.updateGroup g fun gr => { gr with alert := gr.alert.withOrigin (f gr.alert) s.now }

/-- An event of group `g`, if the group exists. -/
def State.onGroup (g : GroupNo) (event : Group → State → State) (s : State) : State :=
  match s.group g with
  | some gr => event gr s
  | none => s

/-! ## Settings (R147) -/

/-- The deference base in milliseconds (R147). -/
def State.deferenceBaseMs (s : State) : Nat := s.settings.deferenceUnits * 100

/-- The repeat interval R in milliseconds (R147). -/
def State.repeatMs (s : State) : Nat := s.settings.repeatUnits * 10000

/-- The follower watch, 3R, in milliseconds (R147). -/
def State.watchMs (s : State) : Nat := 3 * s.repeatMs

/-! ## The record's states -/

/-- A new alert record (R146). -/
def Alert.new (now : Time) : Alert where
  state := .clear
  level := none
  raiser := none
  raiseSent := false
  deference := none
  repeatTimer := none
  watch := none
  takenUntil := none
  terminal := 0
  origin := now

/-- The record in CLEAR: no timer runs, and level, raiser and take are none. -/
def Alert.toClear (a : Alert) : Alert :=
  { a with
    state := .clear
    level := none
    raiser := none
    raiseSent := false
    deference := none
    repeatTimer := none
    watch := none
    takenUntil := none
    terminal := 0 }

/-- The record in PENDING with the deference's end (R148). -/
def Alert.toPending (ends : Time) (a : Alert) : Alert := { a.toClear with state := .pending, deference := some ends }

/-- The record in FOLLOWING a raiser (R156, R157, R165). -/
def Alert.toFollowing (raiser : Option Nat) (level : Option Shortage) (watchEnds : Time) (a : Alert) : Alert :=
  { a.toClear with state := .following, raiser := raiser, level := level, watch := some watchEnds }

/-- The record in RAISED at a level (R153). -/
def Alert.toRaised (level : Option Shortage) (repeatEnds : Time) (a : Alert) : Alert :=
  { a.toClear with state := .raised, level := level, repeatTimer := some repeatEnds }

/-- The record in TAKEN (R160). -/
def Alert.toTaken (takenUntil : Time) (terminal : Byte) (a : Alert) : Alert :=
  { a.toClear with state := .taken, level := a.level, takenUntil := some takenUntil, terminal := terminal }

/-- The record in SUSPENDED (R163). -/
def Alert.toSuspended (a : Alert) : Alert := { a.toClear with state := .suspended }

/-- The level of a short group (R149, R153). -/
def Level.shortage : Level → Option Shortage
  | .ok => none
  | .low => some .low
  | .empty => some .empty

/-! ## Deference (R148) -/

/-- An article matches a group (00, "Masks and matching"). -/
def matchesGroup (article key mask : Word) : Bool := article &&& mask == key

/-- The rank (R148): the number of distinct lower station numbers among the FRESH entries of the group that are IN SERVICE. -/
def rank (own : Nat) (r : GroupRecord) (peers : List PeerEntry) : Nat :=
  (List.range own).countP fun n =>
    peers.any fun e =>
      decide (e.sender = n) && matchesGroup e.article r.key r.mask && decide (e.age = .fresh) && decide (e.state = .inService)

/-- The deference delay in milliseconds (R148). -/
def State.deferenceMs (s : State) (r : GroupRecord) (jitter : Nat) : Nat :=
  s.deferenceBaseMs * (rank s.number r s.peers + 1) + jitter

/-- The record enters PENDING, with the rank and a jitter of 0 to 63 ms taken now (R148). -/
def enterPending (g : GroupNo) (s : State) : State :=
  s.onGroup g fun gr s =>
    let jitter := s.draw 64
    jitter.2.updateAlert g (Alert.toPending (s.now.addMs (s.deferenceMs gr.record jitter.1)))

/-- The record enters PENDING if the condition holds outside JOINING, and otherwise CLEAR (R159, R161, R162). -/
def pendingOrClear (g : GroupNo) (s : State) : State :=
  s.onGroup g fun gr s =>
    if gr.record.condition && !s.joining then enterPending g s else s.updateAlert g Alert.toClear

/-- The test of a CLEAR record (R149). -/
def testClear (g : GroupNo) (s : State) : State :=
  s.onGroup g fun gr s =>
    if decide (gr.alert.state = .clear) && gr.record.condition && !s.joining then enterPending g s else s

/-! ## Frames offered -/

/-- The RAISE body of a group (R152). -/
def Group.raiseBody (g : GroupNo) (gr : Group) : Body :=
  .raise g gr.record.key gr.record.mask gr.alert.level gr.record.quality gr.record.aggregate gr.record.reorderPoint

/-- A RAISE is offered from the records as they stand (R152). -/
def offerRaise (g : GroupNo) (s : State) : State := s.onGroup g fun gr s => offer (gr.raiseBody g) s

/-- A CLEAR is offered (R105, R150, R155). -/
def offerClear (g : GroupNo) (s : State) : State :=
  s.onGroup g fun gr s => offer (.clear g gr.record.key gr.record.mask) s

/-! ## Reports of the Group Evaluator -/

/-- A RAISED record takes a report (R150). -/
def raisedReport (g : GroupNo) (gr : Group) (s : State) : State :=
  if gr.record.quality = .indeterminate then s
  else if gr.record.condition = false then
    withdrawRaise g ((if gr.alert.raiseSent then offerClear g s else s).updateAlert g Alert.toClear)
  else if gr.record.level.shortage ≠ gr.alert.level then
    offerRaise g (s.updateAlert g fun a =>
      { a with level := gr.record.level.shortage, repeatTimer := some (s.now.addMs s.repeatMs) })
  else s

/-- A record takes a report of level, quality and condition (R149, R150, R151). -/
def alertReport (g : GroupNo) (s : State) : State :=
  s.onGroup g fun gr s =>
    match gr.alert.state with
    | .clear => testClear g s
    | .pending => if gr.record.condition then s else s.updateAlert g Alert.toClear
    | .raised => raisedReport g gr s
    | .following => s
    | .taken => if gr.record.condition then s else s.updateAlert g Alert.toClear
    | .suspended => s

/-- The suspending member has become present (R163). -/
def suspendAlert (g : GroupNo) (s : State) : State :=
  s.onGroup g fun gr s =>
    if gr.alert.state = .suspended then s else withdrawRaise g (s.updateAlert g Alert.toSuspended)

/-- The suspending member has become absent (R164). -/
def resumeAlert (g : GroupNo) (s : State) : State :=
  s.onGroup g fun gr s =>
    if gr.alert.state = .suspended then testClear g (s.updateAlert g Alert.toClear) else s

/-! ## Timers -/

/-- A PENDING record's deference has expired (R153). -/
def deferenceExpired (g : GroupNo) (gr : Group) (s : State) : State :=
  if gr.record.condition = false then s.updateAlert g Alert.toClear
  else if s.line.state = .listenOnly then enterPending g s
  else offerRaise g (s.updateAlert g (Alert.toRaised gr.record.level.shortage (s.now.addMs s.repeatMs)))

/-- A RAISED record's repeat timer has expired, or a higher station's RAISE is answered: a RAISE is offered and the timer restarted
(R154, R157). -/
def repeatRaise (g : GroupNo) (s : State) : State :=
  offerRaise g (s.updateAlert g fun a => { a with repeatTimer := some (s.now.addMs s.repeatMs) })

/-! ## Outcomes of own frames (R155) -/

/-- A RAISE of the group was sent. -/
def raiseSentOutcome (g : GroupNo) (s : State) : State :=
  s.onGroup g fun gr s =>
    match gr.alert.state with
    | .raised => s.updateAlert g fun a => { a with raiseSent := true }
    | .clear => offerClear g s
    | .pending => s
    | .following => s
    | .taken => s
    | .suspended => s

/-- A RAISE of the group was discarded. -/
def raiseDiscardedOutcome (g : GroupNo) (s : State) : State :=
  s.onGroup g fun gr s =>
    if gr.alert.state = .raised ∧ gr.alert.raiseSent = false then
      withdrawRaise g (if gr.record.condition then enterPending g s else s.updateAlert g Alert.toClear)
    else s

/-! ## Frames heard -/

/-- The lower of the recorded raiser and a sender, none counting as higher than any number (R156). -/
def lowerRaiser (recorded : Option Nat) (sender : Nat) : Nat :=
  match recorded with
  | some n => min n sender
  | none => sender

/-- A RAISE heard for the group (R156, R157). Now is the frame's arrival time (R88). -/
def raiseHeard (g : GroupNo) (sender : Nat) (level : Shortage) (s : State) : State :=
  s.onGroup g fun gr s =>
    let watchEnds := s.now.addMs s.watchMs
    match gr.alert.state with
    | .clear => s.updateAlert g (Alert.toFollowing (some sender) (some level) watchEnds)
    | .pending => s.updateAlert g (Alert.toFollowing (some sender) (some level) watchEnds)
    | .following =>
      s.updateAlert g (Alert.toFollowing (some (lowerRaiser gr.alert.raiser sender)) (some level) watchEnds)
    | .taken => s
    | .suspended => s
    | .raised =>
      if sender < s.number then
        withdrawRaise g (s.updateAlert g (Alert.toFollowing (some sender) (some level) watchEnds))
      else repeatRaise g s

/-- A CLEAR heard for the group (R158). -/
def clearHeard (g : GroupNo) (sender : Nat) (s : State) : State :=
  s.onGroup g fun gr s =>
    if gr.alert.state = .following ∧ gr.alert.raiser = some sender then
      testClear g (s.updateAlert g Alert.toClear)
    else s

/-- A late take or a refused release is counted (R160, R161). -/
def refuseGateway (s : State) : State := s.count .refusedGatewayCommands 1

/-- A TAKE with a duration of 1 to 255 minutes (R160). -/
def takeHeard (g : GroupNo) (terminal : Byte) (minutes : Nat) (s : State) : State :=
  s.onGroup g fun gr s =>
    let ends := s.now.addMs (minutes * 60000)
    match gr.alert.state with
    | .pending => withdrawRaise g (s.updateAlert g (Alert.toTaken ends terminal))
    | .raised => withdrawRaise g (s.updateAlert g (Alert.toTaken ends terminal))
    | .following => withdrawRaise g (s.updateAlert g (Alert.toTaken ends terminal))
    | .taken => s.updateAlert g fun a => { a with takenUntil := some ends, terminal := terminal }
    | .clear => refuseGateway s
    | .suspended => refuseGateway s

/-- A TAKE with a duration of 0, a release (R161). -/
def releaseHeard (g : GroupNo) (terminal : Byte) (s : State) : State :=
  s.onGroup g fun gr s =>
    if gr.alert.state = .taken ∧ gr.alert.terminal = terminal then pendingOrClear g s else refuseGateway s

/-! ## The line (R165) -/

/-- The line state has become LISTEN-ONLY: a RAISED record follows with no raiser (R165). -/
def alertListenOnly (g : GroupNo) (s : State) : State :=
  s.onGroup g fun gr s =>
    if gr.alert.state = .raised then
      withdrawRaise g (s.updateAlert g fun a => a.toFollowing none a.level (s.now.addMs s.watchMs))
    else s

end Sys2Proof.Machine
end

