-- ==== Sys2Proof/Machine/Groups.lean ====
section
/-! DEFINITION. The Group Evaluator (09, R131 to R145). -/

namespace Sys2Proof.Machine

/-! ## Members and contributors (R132) -/

/-- What a group sees of a member or a contributor, own lane or Peer Stock Table entry (R132 to R135). -/
structure Holder where
  stock : Nat
  state : LaneState
  confidence : Confidence
  stale : Bool
  deriving DecidableEq, Repr

/-- The own lanes whose article matches the group and that are not OFF (R132). -/
def State.ownHolders (s : State) (key mask : Word) : List Holder :=
  (allLanes.filter fun l =>
      decide ((s.lane l).service.state ≠ .off) && matchesGroup (s.laneSettings l).article key mask).map fun l =>
    { stock := (s.lane l).counter.count * (s.laneSettings l).pack
      state := (s.lane l).service.state
      confidence := (s.lane l).counter.confidence
      stale := false }

/-- The Peer Stock Table entries whose article matches the group (R132). -/
def peerHolders (peers : List PeerEntry) (key mask : Word) : List Holder :=
  (peers.filter fun e => matchesGroup e.article key mask).map fun e =>
    { stock := e.count * e.pack, state := e.state, confidence := e.confidence, stale := decide (e.age = .stale) }

/-- Every own lane and entry that holds an article of the group. -/
def State.holders (s : State) (key mask : Word) : List Holder := s.ownHolders key mask ++ peerHolders s.peers key mask

/-- A member: an own lane that is not OFF, or a FRESH entry (R132). -/
def Holder.isMember (h : Holder) : Bool := !h.stale

/-- A contributor: IN SERVICE with a confidence that is not UNKNOWN; an entry FRESH or STALE (R132). -/
def Holder.isContributor (h : Holder) : Bool := decide (h.state = .inService) && decide (h.confidence ≠ .unknown)

/-- The aggregate: the sum over the contributors, clamped (R133). -/
def aggregateOf (hs : List Holder) : Nat := min ((hs.filter Holder.isContributor).map Holder.stock).sum 16777215

/-- The quality (R134). -/
def qualityOf (hs : List Holder) : Quality :=
  if hs.any Holder.isContributor = false then .indeterminate
  else if hs.any fun h =>
      (h.isContributor && (decide (h.confidence = .doubtful) || h.stale))
        || (h.isMember && (decide (h.state = .fault) || decide (h.confidence = .unknown))) then .doubtful
  else .sure

/-- A suspending member is present: a member HELD or RESUMING (R135). -/
def suspendingOf (hs : List Holder) : Bool :=
  hs.any fun h => h.isMember && (decide (h.state = .held) || decide (h.state = .resuming))

/-! ## Level and condition -/

/-- The projection trigger (R139), formed exactly. -/
def projection (leadTime rate : Nat) (aggregate emptyPoint : Nat) : Bool :=
  decide (leadTime ≠ 0) && decide (16 * ((aggregate : Int) - (emptyPoint : Int)) ≤ (rate : Int) * (leadTime : Int))

/-- The level at an evaluation (R140). -/
def levelOf (r : GroupRecord) (aggregate : Nat) (quality : Quality) : Level :=
  let trigger := projection r.leadTimeMin r.rate aggregate r.emptyPoint
  if quality = .indeterminate then r.level
  else if aggregate ≤ r.emptyPoint then .empty
  else if aggregate ≤ r.reorderPoint ∨ trigger = true then .low
  else if r.reorderPoint + r.hysteresis ≤ aggregate ∧ trigger = false then .ok
  else r.level

/-- The alert condition (R141). -/
def conditionOf (level : Level) (quality : Quality) : Bool := decide (level ≠ .ok) && decide (quality ≠ .indeterminate)

/-- The record after the six steps of an evaluation (R142). -/
def GroupRecord.evaluated (r : GroupRecord) (hs : List Holder) : GroupRecord :=
  let aggregate := aggregateOf hs
  let quality := qualityOf hs
  let level := levelOf r aggregate quality
  { r with
    aggregate := aggregate
    quality := quality
    suspending := suspendingOf hs
    level := level
    condition := conditionOf level quality }

/-- A change of the suspending member is handed to the Alert Controller (R135, R163, R164). -/
def suspensionReport (g : GroupNo) (before after : GroupRecord) (s : State) : State :=
  if before.suspending = after.suspending then s
  else if after.suspending then suspendAlert g s
  else resumeAlert g s

/-- A change of level, quality or condition is handed to the Alert Controller (R142). -/
def levelReport (g : GroupNo) (before after : GroupRecord) (s : State) : State :=
  if before.level = after.level ∧ before.quality = after.quality ∧ before.condition = after.condition then s
  else alertReport g s

/-- An evaluation of a group (R142). Of two reports the change of the suspending member is taken first (R164). -/
def evaluate (g : GroupNo) (s : State) : State :=
  s.onGroup g fun gr s =>
    let after := gr.record.evaluated (s.holders gr.record.key gr.record.mask)
    levelReport g gr.record after (suspensionReport g gr.record after (s.updateRecord g fun _ => after))

/-! ## Changes of the own lanes (R136, R143) -/

/-- A lane state and confidence change that sets the membership-changed flag of a matching group (R136). -/
def membershipMoves (stateBefore stateAfter : LaneState) (confBefore confAfter : Confidence) : Bool :=
  (decide (stateBefore = .inService) != decide (stateAfter = .inService))
    || (decide (confBefore = .unknown) != decide (confAfter = .unknown))

/-- The membership-changed flag is set (R136). -/
def setMembership (g : GroupNo) (s : State) : State := s.updateRecord g fun r => { r with membershipChanged := true }

/-- A group takes a change of an own lane whose article it matches (R136, R143). -/
def groupTakesLane (article : Word) (moves : Bool) (g : GroupNo) (s : State) : State :=
  s.onGroup g fun gr s =>
    if matchesGroup article gr.record.key gr.record.mask then
      evaluate g (if moves then setMembership g s else s)
    else s

/-- What an event has changed of a lane: its state, count or confidence (R49, R61). -/
def laneChanged (before after : Lane) : Bool :=
  decide (before.service.state ≠ after.service.state)
    || decide (before.counter.count ≠ after.counter.count)
    || decide (before.counter.confidence ≠ after.counter.confidence)

/-- The Group Evaluator takes a lane's change, once, with the new count, confidence and state together (R49, R61, R143). -/
def groupsTakeLane (l : LaneNo) (before : Lane) (s : State) : State :=
  let after := s.lane l
  if laneChanged before after then
    eachGroup (groupTakesLane (s.laneSettings l).article
      (membershipMoves before.service.state after.service.state before.counter.confidence after.counter.confidence)) s
  else s

/-- After an event has changed lane `l` from `before` to what it is now: its report is due if its state, count or confidence changed
or the event makes it due in any case (R49, R50, R61), and the Group Evaluator takes the change. The two have no order. -/
def laneSettled (force : Bool) (l : LaneNo) (before : Lane) (s : State) : State :=
  inEitherOrder (fun s => if force || laneChanged before (s.lane l) then laneReport l s else s) (groupsTakeLane l before) s

/-- Lane `l` changed by `f`, with all that follows (R49, R61). -/
def changeLane (l : LaneNo) (f : Lane → Lane) (s : State) : State :=
  laneSettled false l (s.lane l) (s.updateLane l f)

/-! ## The rate tick (R137, R138) -/

/-- A rate update is skipped (R138). -/
def skipsRate (gr : Group) : Bool :=
  gr.record.membershipChanged || decide (gr.record.quality = .indeterminate) || decide (gr.alert.state = .suspended)

/-- The depletion rate after an update (R138): `fall` is the fall of the aggregate, 0 when it rose, clamped to 65,535. -/
def updatedRate (rate previous aggregate : Nat) : Nat :=
  min (rate - rate / 8 + 2 * min (previous - aggregate) 65535) 16777215

/-- A group record at a rate tick (R138). -/
def rateUpdate (gr : Group) : GroupRecord :=
  if skipsRate gr then
    { gr.record with previousAggregate := gr.record.aggregate, membershipChanged := false }
  else
    { gr.record with
      rate := updatedRate gr.record.rate gr.record.previousAggregate gr.record.aggregate
      previousAggregate := gr.record.aggregate
      membershipChanged := false }

/-- A group takes the rate tick: the update, then an evaluation (R137). -/
def groupRateTick (g : GroupNo) (s : State) : State :=
  evaluate g (s.updateGroup g fun gr => { gr with record := rateUpdate gr })

/-! ## Formation (R131) -/

/-- A new group record of a parameter lane (R131). -/
def GroupRecord.new (l : LaneNo) (c : LaneSettings) : GroupRecord where
  key := c.article &&& c.mask
  mask := c.mask
  parameterLane := l
  reorderPoint := c.reorderPoint
  emptyPoint := c.emptyPoint
  hysteresis := c.hysteresis
  leadTimeMin := c.leadTimeMin
  aggregate := 0
  quality := .indeterminate
  level := .ok
  condition := false
  suspending := false
  previousAggregate := 0
  rate := 0
  membershipChanged := false

/-- The lanes that form a group each: of the lanes given, in ascending order, those whose key and mask no earlier one has (R131). -/
def formingLanes (settings : LaneNo → LaneSettings) : List LaneNo → List LaneNo → List LaneNo
  | [], found => found
  | l :: rest, found =>
    if found.any fun f =>
        (settings f).mask == (settings l).mask
          && (settings f).article &&& (settings f).mask == (settings l).article &&& (settings l).mask then
      formingLanes settings rest found
    else formingLanes settings rest (found ++ [l])

/-- The groups formed from the own lanes that are not OFF, with their alert records (R131, R146). -/
def formGroups (s : State) : State :=
  let forming := formingLanes s.laneSettings (allLanes.filter fun l => decide ((s.lane l).service.state ≠ .off)) []
  { s with
    groups := Four.of fun g =>
      (forming[g.val]?).map fun l => { record := GroupRecord.new l (s.laneSettings l), alert := Alert.new s.now } }

/-- Every group is formed and evaluated once (R131). -/
def formAndEvaluate (s : State) : State := eachGroup evaluate (formGroups s)

end Sys2Proof.Machine
end

