-- ==== Sys2Proof/Machine/PeerView.lean ====
section
/-! DEFINITION. The Peer View (08, R117 to R130). -/

namespace Sys2Proof.Machine

/-- An entry's place in key order: ascending sender, then ascending lane (8.1). -/
def PeerEntry.keyOrder (e : PeerEntry) : Nat := e.sender * 4 + e.lane.val

/-- An entry has this key (8.1). -/
def PeerEntry.hasKey (sender : Nat) (lane : LaneNo) (e : PeerEntry) : Bool :=
  decide (e.sender = sender) && decide (e.lane = lane)

/-- The most entries the table holds (R117). -/
def peerCapacity : Nat := 48

/-- The stale time in milliseconds: three times the own report interval (8.4). -/
def State.staleMs (s : State) : Nat := 3 * (s.settings.reportIntervalS * 1000)

/-- The forget time in milliseconds (8.4). -/
def State.forgetMs (s : State) : Nat := s.settings.forgetTimeMin * 60000

/-- The entry with a key. -/
def findPeer (sender : Nat) (lane : LaneNo) (peers : List PeerEntry) : Option PeerEntry :=
  peers.find? (PeerEntry.hasKey sender lane)

/-- The table without the entry of a key. -/
def removePeer (sender : Nat) (lane : LaneNo) (peers : List PeerEntry) : List PeerEntry :=
  peers.filter fun e => !e.hasKey sender lane

/-- An entry put in at its key position (R120). -/
def insertPeer (e : PeerEntry) : List PeerEntry → List PeerEntry
  | [] => [e]
  | a :: l => if e.keyOrder < a.keyOrder then e :: a :: l else a :: insertPeer e l

/-- An entry overwritten by a report of the same key (R119). -/
def overwritePeer (e : PeerEntry) (peers : List PeerEntry) : List PeerEntry :=
  peers.map fun o => if o.hasKey e.sender e.lane then e else o

/-- The STALE entry that gives way (R121): the oldest arrival, and of equal ones the first in key order. -/
def oldestStale : List PeerEntry → Option PeerEntry
  | [] => none
  | e :: l =>
    if e.age = .stale then
      match oldestStale l with
      | some o => if e.arrival.notAfter o.arrival then some e else some o
      | none => some e
    else oldestStale l

/-! ## Notices (R126) -/

/-- An entry matches a group. -/
def PeerEntry.matchesRecord (r : GroupRecord) (e : PeerEntry) : Bool := matchesGroup e.article r.key r.mask

/-- Whether a notice sets a group's membership-changed flag (R136). A side that is absent, or whose article does not match the
group, counts as no entry: the group takes an insertion or a removal (R126). The notice aged changes neither state nor confidence,
so it does not set it. -/
def noticeMoves (before after : Option PeerEntry) : Bool :=
  match before, after with
  | none, none => false
  | none, some _ => true
  | some _, none => true
  | some b, some a => membershipMoves b.state a.state b.confidence a.confidence

/-- A group takes a notice of the Peer View, if its article matched on either side (R126, R136, R143). -/
def groupTakesNotice (before after : Option PeerEntry) (g : GroupNo) (s : State) : State :=
  s.onGroup g fun gr s =>
    let b := before.filter (PeerEntry.matchesRecord gr.record)
    let a := after.filter (PeerEntry.matchesRecord gr.record)
    if b.isSome || a.isSome then evaluate g (if noticeMoves b a then setMembership g s else s) else s

/-- A notice is handed to the Group Evaluator (R126). -/
def notice (before after : Option PeerEntry) (s : State) : State :=
  eachGroup (groupTakesNotice before after) s

/-! ## Reports (R118 to R121) -/

/-- Two entries that differ in nothing but the arrival time (R119). -/
def PeerEntry.sameContents (a b : PeerEntry) : Bool :=
  decide (a.article = b.article) && decide (a.pack = b.pack) && decide (a.count = b.count) && decide (a.state = b.state)
    && decide (a.confidence = b.confidence) && decide (a.age = b.age)

/-- A report whose key is present overwrites the entry (R119). -/
def overwriteReport (old e : PeerEntry) (s : State) : State :=
  let t := { s with peers := overwritePeer e s.peers }
  if old.sameContents e then t else notice (some old) (some e) t

/-- A report for an absent key is inserted (R120). -/
def insertReport (e : PeerEntry) (s : State) : State :=
  notice none (some e) { s with peers := insertPeer e s.peers }

/-- A STALE entry gives way to a report (R121). The two notices are handed on removal first, each with its evaluation (R143), and at both the
Group Evaluator reads the table as it stands after both (R126, log 8). -/
def replaceReport (old e : PeerEntry) (s : State) : State :=
  notice none (some e)
    (notice (some old) none { s with peers := insertPeer e (removePeer old.sender old.lane s.peers) })

/-- A report reaches the table (R118). -/
def takeReport (e : PeerEntry) (s : State) : State :=
  match findPeer e.sender e.lane s.peers with
  | some old => overwriteReport old e s
  | none =>
    if s.peers.length < peerCapacity then insertReport e s
    else
      match oldestStale s.peers with
      | some old => replaceReport old e s
      | none => s.count .tableFullDrops 1

/-! ## Ageing (R123, R124) -/

/-- An entry's change to STALE (R123). With a forget time no more than the stale time an entry does not become STALE at all. -/
def ageEntry (sender : Nat) (lane : LaneNo) (s : State) : State :=
  match findPeer sender lane s.peers with
  | none => s
  | some e =>
    if e.age = .fresh ∧ s.staleMs < s.forgetMs ∧ e.arrival.olderThan s.now s.staleMs = true then
      let stale := { e with age := AgeState.stale }
      notice (some e) (some stale) { s with peers := overwritePeer stale s.peers }
    else s

/-- An entry's removal at the forget time (R124). -/
def forgetEntry (sender : Nat) (lane : LaneNo) (s : State) : State :=
  match findPeer sender lane s.peers with
  | none => s
  | some e =>
    if e.arrival.olderThan s.now s.forgetMs then
      notice (some e) none { s with peers := removePeer sender lane s.peers }
    else s

/-! ## SURVEY (R129, R116) -/

/-- A listed pair matches a lane's article: the article under the pair's mask equals the pair's key (R129). -/
def pairMatches (article : Word) (p : Word × Word) : Bool := matchesGroup article p.1 p.2

/-- A lane is named by a SURVEY that arrives now (R116). -/
def nameLane (l : LaneNo) (s : State) : State :=
  if (s.lane l).service.state = .off then s
  else if s.number % 16 = 0 then laneReport l s
  else
    match (s.lane l).service.surveyDelay with
    | some _ => s
    | none => s.updateService l fun sv => { sv with surveyDelay := some (s.now.addMs (s.number % 16 * 50)) }

/-- A kept SURVEY names every own lane that a pair matches, once (R129). -/
def surveyHeard (pairs : List (Word × Word)) (s : State) : State :=
  eachLane (fun l s => if pairs.any (pairMatches (s.laneSettings l).article) then nameLane l s else s) s

end Sys2Proof.Machine
end

