-- ==== Sys2Proof/Machine/Shock.lean ====
section
/-! DEFINITION. The Shock Monitor (05, R72 to R80). -/

namespace Sys2Proof.Machine

/-- The own hold time in milliseconds (R72). -/
def ShockMonitor.holdMs (m : ShockMonitor) : Nat := m.holdTime * 100

/-- A weighing record takes the beginning or the extension of a holdoff (R30). -/
def Weighing.underHoldoff (w : Weighing) : Weighing := { w with motion := .moving, window := [] }

/-- A weighing record takes the end of a holdoff (R31). -/
def Weighing.afterHoldoff (w : Weighing) : Weighing := { w with motion := .moving, filter := [], window := [] }

/-- Every lane's weighing record changed by `f`. -/
def State.updateAllWeighing (f : Weighing → Weighing) (s : State) : State :=
  { s with lanes := s.lanes.map fun lane => { lane with weighing := f lane.weighing } }

/-- The holdoff begins, or is extended, with this end, and every Lane Weighing Unit takes the notice (R73, R30). -/
def setHoldoff (ends : Time) (s : State) : State :=
  (s.updateShock fun m => { m with holdoff := some ends }).updateAllWeighing Weighing.underHoldoff

/-- A candidate end is applied (the table of R73). -/
def applyCandidate (candidate : Time) (s : State) : State :=
  match s.shock.holdoff with
  | none => setHoldoff candidate s
  | some ends => if ends.before candidate then setHoldoff candidate s else s

/-- The send inhibit has passed: it is none, or its end is at or before now (R75). -/
def inhibitPassed (s : State) : Bool :=
  match s.shock.sendInhibit with
  | none => true
  | some ends => ends.notAfter s.now

/-- A DISTURB is offered after a local shock that finds the send inhibit passed, and the inhibit is set (R75, R76). -/
def disturbOffer (s : State) : State :=
  if inhibitPassed s then
    offer (.disturb s.shock.ownZone s.shock.holdTime)
      (s.updateShock fun m => { m with sendInhibit := some (s.now.addMs (m.holdMs / 2)) })
  else s

/-- A Lane Weighing Unit reports a shock (R74). -/
def shockReported (s : State) : State := disturbOffer (applyCandidate (s.now.addMs s.shock.holdMs) s)

/-- A neighbour entry of 0 is unused and matches no zone (R77). -/
def ShockMonitor.names (m : ShockMonitor) (zone : Byte) : Bool :=
  allLanes.any fun i => m.neighbours.get i == zone && m.neighbours.get i != 0

/-- The configured monitor applies notices of its own zone and of its neighbour zones (R77, R102). -/
def ShockMonitor.applies (m : ShockMonitor) (zone : Byte) : Bool := m.configured && (m.ownZone == zone || m.names zone)

/-- A hold of 0 counts as 1 and a hold above 100 as 100 (R77, R102). -/
def clampHold (hold : Nat) : Nat := max 1 (min hold 100)

/-- A kept DISTURB that arrives now (R77). -/
def disturbHeard (zone : Byte) (hold : Nat) (s : State) : State :=
  if s.shock.applies zone then applyCandidate (s.now.addMs (clampHold hold * 100)) s else s

/-- The holdoff reaches its end (R78). -/
def holdoffEnds (s : State) : State :=
  (s.updateShock fun m => { m with holdoff := none }).updateAllWeighing Weighing.afterHoldoff

end Sys2Proof.Machine
end

