-- ==== Sys2Proof/Machine/Counting.lean ====
section
/-! DEFINITION. The Lane Counter (03, R35 to R53). -/

namespace Sys2Proof.Machine

/-- A division that rounds to the nearest integer, halves away from zero (00, "Rounding"). -/
def roundedQuotient (a : Int) (b : Nat) : Int :=
  if a < 0 then -(((2 * a.natAbs + b) / (2 * b) : Nat) : Int) else (((2 * a.natAbs + b) / (2 * b) : Nat) : Int)

/-- What a settlement taken up gives: the record, the amount of R47, whether it counts as doubtful (R48), and whether DRIFT was set
(R44). -/
structure Settlement where
  counter : Counter
  amount : Int
  drifted : Bool
  deriving DecidableEq, Repr

/-- The net weight (R37). -/
def netWeight (c : LaneSettings) (level offset : Int) : Int := level - (c.tare : Int) - offset

/-- The settlement is an overload (R38). -/
def isOverload (c : LaneSettings) (net : Int) (isOver : Bool) : Bool := isOver || decide ((c.capacityKg : Int) * 1000 < net)

/-- The settlement is an underload, if it is no overload (R39). -/
def isUnderload (c : LaneSettings) (net : Int) : Bool := decide (net < -(c.band : Int))

/-- The count before the clamp (R40): a negative net weight gives 0. -/
def unclampedCount (c : LaneSettings) (net : Int) : Nat := if net < 0 then 0 else (roundedQuotient net c.unitWeight).toNat

/-- The candidate count k (R40). -/
def candidateCount (c : LaneSettings) (net : Int) : Nat := min (unclampedCount c net) 65535

/-- Zero tracking applies (R43). -/
def zeroTracks (c : LaneSettings) (countBefore : Nat) (net : Int) : Bool :=
  decide (countBefore = 0) && decide (candidateCount c net = 0) && decide (net ≠ 0) && decide (net.natAbs ≤ c.band)

/-- The remainder is within the allowance (R41). -/
def withinAllowance (c : LaneSettings) (net : Int) (k : Nat) : Bool :=
  decide ((net - (k : Int) * (c.unitWeight : Int)).natAbs ≤ c.band + k * c.tolerance)

/-- The confidence of a counted settlement without zero tracking (R41). -/
def countedConfidence (c : LaneSettings) (net : Int) : Confidence :=
  if 65535 < unclampedCount c net then .doubtful
  else if withinAllowance c net (candidateCount c net) then .sure
  else .doubtful

/-- A settlement that is counted (R40 to R44). -/
def countedSettlement (c : LaneSettings) (before : Counter) (net : Int) : Counter × Bool :=
  let cleared := { before with overload := false, underload := false }
  if zeroTracks c before.count net then
    if (before.offset + net).natAbs ≤ c.zeroLimit then
      ({ cleared with offset := before.offset + net, count := 0, confidence := .sure }, false)
    else ({ cleared with count := 0, confidence := .doubtful, drift := true }, true)
  else ({ cleared with count := candidateCount c net, confidence := countedConfidence c net }, false)

/-- The pick and put amount (R47). -/
def pickAndPut (before after : Counter) : Int :=
  if before.confidence = .unknown then 0 else (after.count : Int) - (before.count : Int)

/-- A settlement taken up, with the settled level and settled OVER (R37). -/
def settlement (c : LaneSettings) (before : Counter) (level : Int) (isOver : Bool) : Settlement :=
  let net := netWeight c level before.offset
  if isOverload c net isOver then
    { counter := { before with overload := true, underload := false, confidence := .doubtful }, amount := 0, drifted := false }
  else if isUnderload c net then
    let after := { before with overload := false, underload := true, count := 0, confidence := Confidence.doubtful }
    { counter := after, amount := pickAndPut before after, drifted := false }
  else
    let counted := countedSettlement c before net
    { counter := counted.1, amount := pickAndPut before counted.1, drifted := counted.2 }

/-- The counters take a settlement (R47, R48). -/
def countSettlement (r : Settlement) (s : State) : State :=
  let picked := if r.amount < 0 then s.count .unitsPicked r.amount.natAbs else s
  let put := if 0 < r.amount then picked.count .unitsPut r.amount.natAbs else picked
  if r.counter.confidence = .doubtful then put.count .doubtfulSettlements 1 else put

/-- The lane state after a settlement taken up: STARTING and RESUMING become IN SERVICE (R36, R55). -/
def LaneState.afterSettlement : LaneState → LaneState
  | .starting => .inService
  | .resuming => .inService
  | .inService => .inService
  | .held => .held
  | .off => .off
  | .fault => .fault

/-- A settlement is taken up in this state (the table of R36). -/
def LaneState.takesUp : LaneState → Bool
  | .starting => true
  | .inService => true
  | .resuming => true
  | .held => false
  | .off => false
  | .fault => false

/-- The Lane Counter receives a settlement of lane `l` (R36). It is taken up as one event, and any report it makes due carries the
results as they stand after all of it. -/
def settlementArrives (l : LaneNo) (level : Int) (isOver : Bool) (s : State) : State :=
  let lane := s.lane l
  if lane.service.state.takesUp then
    let r := settlement (s.laneSettings l) lane.counter level isOver
    let counted := countSettlement r (if r.drifted then s.noteDrift l else s)
    changeLane l (fun lane =>
      { lane with
        counter := r.counter
        service := { lane.service with state := lane.service.state.afterSettlement } }) counted
  else s

/-- The re-zero is allowed (R50). -/
def reZeroAllowed (c : LaneSettings) (lane : Lane) : Option Int :=
  match lane.weighing.motion with
  | .settled level =>
    if lane.service.state = .inService ∧ (level - (c.tare : Int)).natAbs ≤ c.zeroLimit then some (level - (c.tare : Int))
    else none
  | .moving => none

/-- The count record after a re-zero (R50). -/
def Counter.reZeroed (offset : Int) (c : Counter) : Counter :=
  { c with offset := offset, count := 0, confidence := .sure, overload := false, underload := false }

/-- A re-zero acts (R50): the report is due in any case, the Group Evaluator learns of a change. -/
def reZero (l : LaneNo) (offset : Int) (s : State) : State :=
  laneSettled true l (s.lane l) (s.updateLane l fun lane => { lane with counter := lane.counter.reZeroed offset })

end Sys2Proof.Machine
end

