-- ==== Sys2Proof/Machine/LaneService.lean ====
section
/-! DEFINITION. The Lane Service Unit: lane states and buttons (04, R54 to R67). -/

namespace Sys2Proof.Machine

/-! ## Changes of state (R56 to R60) -/

/-- The weighing record when the lane enters FAULT (R29). -/
def Weighing.enterFault (w : Weighing) : Weighing := { w with motion := .moving, window := [], previousGross := none }

/-- The weighing record when the lane enters RESUMING, from FAULT or otherwise (R29). -/
def Weighing.enterResuming (w : Weighing) : Weighing := { w with motion := .moving, filter := [], window := [] }

/-- A lane enters FAULT (R56, R42). -/
def Lane.enterFault (now : Time) (lane : Lane) : Lane where
  weighing := lane.weighing.enterFault
  counter := { lane.counter with confidence := .unknown }
  service := { lane.service with state := .fault, holdTimer := none, faultBeatOrigin := now }

/-- A lane enters RESUMING (R59); the HOLD BEAT origin is the moment of entry, except from HELD. -/
def Lane.enterResuming (now : Time) (lane : Lane) : Lane :=
  { lane with
    weighing := lane.weighing.enterResuming
    service := { lane.service with
      state := .resuming
      holdTimer := none
      holdBeatOrigin := if lane.service.state = .held then lane.service.holdBeatOrigin else now } }

/-- A lane enters HELD (R58). -/
def Lane.enterHeld (now : Time) (holdLimitMin : Nat) (lane : Lane) : Lane :=
  { lane with
    service := { lane.service with
      state := .held
      holdTimer := some (now.addMs (holdLimitMin * 60000))
      holdBeatOrigin := now } }

/-- A lane in this state enters FAULT at a channel's report (R56). -/
def LaneState.faults : LaneState → Bool
  | .starting => true
  | .inService => true
  | .held => true
  | .resuming => true
  | .off => false
  | .fault => false

/-- One of the lane's weighing channels has entered FAULTED (R56). -/
def laneFaults (l : LaneNo) (s : State) : State :=
  if (s.lane l).service.state.faults then changeLane l (Lane.enterFault s.now) s else s

/-- Every weighing channel of the lane is OK (R57). -/
def State.channelsOk (s : State) (l : LaneNo) : Bool :=
  (s.lane l).weighing.channels.all fun c => decide ((s.engine.channels.get c).state = .ok)

/-- The test of R57: a lane in FAULT whose weighing channels are all OK leaves it for RESUMING. -/
def testFault (l : LaneNo) (s : State) : State :=
  if (s.lane l).service.state = .fault ∧ s.channelsOk l = true then changeLane l (Lane.enterResuming s.now) s else s

/-- A lane at the end of a brown-out (R60). -/
def laneBrownOutEnd (l : LaneNo) (s : State) : State :=
  match (s.lane l).service.state with
  | .inService => changeLane l (Lane.enterResuming s.now) s
  | .held => changeLane l (Lane.enterResuming s.now) s
  | .starting => s
  | .resuming => s
  | .fault => s
  | .off => s

/-! ## Presses (R63 to R66) -/

/-- A refused press starts or restarts the refusal flash (R66). -/
def refusePress (l : LaneNo) (s : State) : State :=
  s.updateService l fun sv => { sv with flash := true, refuseOrigin := s.now }

/-- A short press is taken (R64). -/
def shortPress (l : LaneNo) (s : State) : State :=
  match (s.lane l).service.state with
  | .off => s
  | .inService =>
    if s.inBrownOut then refusePress l s else changeLane l (Lane.enterHeld s.now s.settings.holdLimitMin) s
  | .held => if s.inBrownOut then refusePress l s else changeLane l (Lane.enterResuming s.now) s
  | .starting => refusePress l s
  | .resuming => refusePress l s
  | .fault => refusePress l s

/-- A long press is taken at its 3 s mark (R65, R50, R51). -/
def longPressTaken (l : LaneNo) (s : State) : State :=
  match (s.lane l).service.state with
  | .off => s
  | .inService =>
    if s.inBrownOut then refusePress l s
    else
      match reZeroAllowed (s.laneSettings l) (s.lane l) with
      | some offset => reZero l offset s
      | none => refusePress l s
  | .held => refusePress l s
  | .starting => refusePress l s
  | .resuming => refusePress l s
  | .fault => refusePress l s

/-- A lane's button input is at its active level (R62). -/
def State.buttonActive (s : State) (l : LaneNo) : Bool :=
  (s.lane l).service.buttonInput == s.settings.buttonActiveHigh.get l

/-- The debounced level that the input's level asks for (R62). -/
def State.buttonAsks (s : State) (l : LaneNo) : ButtonLevel := if s.buttonActive l then .active else .inactive

/-- The debounce time in milliseconds (R62). -/
def debounceMs : Nat := 20

/-- The input has changed: the debounce count starts anew if the input is at the other level than the debounced one, and stops if it
has returned to it (R62). Before the load no active level is known, and there is no count. -/
def startDebounce (l : LaneNo) (s : State) : State :=
  match s.station.config with
  | none => s
  | some _ =>
    if s.buttonAsks l = (s.lane l).service.button then s.updateService l fun sv => { sv with debounce := none }
    else s.updateService l fun sv => { sv with debounce := some (s.now.addMs debounceMs) }

/-- The debounce count of a lane has run out at the level. -/
def debounced (l : LaneNo) (level : ButtonLevel) (s : State) : Bool :=
  due (s.lane l).service.debounce s.now && decide (s.buttonAsks l = level) && decide ((s.lane l).service.button ≠ level)

/-- The debounced level becomes ACTIVE: a press (R62, R63). On a lane that is OFF it is followed but not acted upon. -/
def pressTaken (l : LaneNo) (s : State) : State :=
  s.updateService l fun sv =>
    { sv with
      button := .active
      debounce := none
      press := if sv.state = .off then sv.press else .running s.now }

/-- The debounced level becomes INACTIVE: a release (R62, R63). -/
def releaseTaken (l : LaneNo) (s : State) : State :=
  let press := (s.lane l).service.press
  let t := s.updateService l fun sv => { sv with button := .inactive, debounce := none, press := .none }
  match press with
  | .running _ => shortPress l t
  | .spent => t
  | .none => t

/-- The time of the 3 s mark of a running press (R63). -/
def Press.mark : Press → Option Time
  | .running since => some (since.addMs 3000)
  | .spent => Option.none
  | .none => Option.none

end Sys2Proof.Machine
end

