-- ==== Sys2Proof/Machine/Weighing.lean ====
section
/-! DEFINITION. The Lane Weighing Unit (02, R18 to R34). -/

namespace Sys2Proof.Machine

/-! ## Channel weight and gross sample (R19 to R21) -/

/-- The channel weight in grams before the clamp (R19). -/
def unclampedWeight (raw zero : Int) (gain : Nat) : Int := roundedQuotient ((raw - zero) * (gain : Int)) 65536

/-- A channel's weight, clamped, with its OVER indication (R20). -/
def channelWeight (c : Channel) (sample : Sample) : Weight :=
  let w := unclampedWeight sample.raw c.zero c.gain
  if w < -8388607 then { grams := -8388607, isOver := true }
  else if 8388607 < w then { grams := 8388607, isOver := true }
  else { grams := w, isOver := sample.isOver }

/-- The weight that a channel's round result gives the lane: none unless the result is good (R21). -/
def roundWeight (c : Channel) : Option Weight :=
  match c.result, c.latest with
  | .good, some sample => some (channelWeight c sample)
  | .good, none => none
  | .failed, _ => none
  | .none, _ => none

/-- The sum of weights, OVER if any of them is (R21). -/
def sumWeights (ws : List Weight) : Weight :=
  { grams := (ws.map Weight.grams).sum, isOver := ws.any Weight.isOver }

/-- A lane in this state forms gross samples (R21). -/
def LaneState.weighs : LaneState → Bool
  | .starting => true
  | .inService => true
  | .held => true
  | .resuming => true
  | .off => false
  | .fault => false

/-- The gross sample that the round results give the lane, if they give one (R21). -/
def grossSample (channels : Eight Channel) (lane : Lane) : Option Weight :=
  let ws := lane.weighing.channels.map fun c => roundWeight (channels.get c)
  if lane.service.state.weighs && !ws.isEmpty && ws.all Option.isSome then some (sumWeights (ws.filterMap id)) else none

/-! ## The shock test and the filter (R23, R24) -/

/-- The gross sample is a shock (R23). -/
def isShock (shockKg : Nat) (previous : Option Int) (gross : Int) : Bool :=
  match previous with
  | none => false
  | some p => decide (shockKg ≠ 0) && decide (shockKg * 1000 < (gross - p).natAbs)

/-- The newest `n` of a list that is kept oldest first. -/
def newest {α : Type} (n : Nat) (l : List α) : List α := l.drop (l.length - n)

/-- The filter window with a new sample (R24). -/
def pushFilter (depth : Nat) (g : Weight) (window : List Weight) : List Weight := newest depth (window ++ [g])

/-- The filtered value, when the window holds exactly F samples (R24). -/
def filteredValue (depth : Nat) (window : List Weight) : Option Weight :=
  if window.length = depth then
    some { grams := roundedQuotient (window.map Weight.grams).sum depth, isOver := window.any Weight.isOver }
  else none

/-! ## Settling (R26 to R28) -/

/-- The largest and the smallest of some values lie no more than B apart (R26). -/
def withinBand (band : Nat) (values : List Int) : Bool :=
  values.all fun a => values.all fun b => decide (a - b ≤ (band : Int))

/-- The settle window with a new filtered value (R26). -/
def pushWindow (size : Nat) (f : Int) (window : List Int) : List Int := newest size (window ++ [f])

/-- The settle window holds exactly S values within B: the lane settles (R26). -/
def windowSettles (size band : Nat) (window : List Int) : Bool := decide (window.length = size) && withinBand band window

/-- The settling test of a filtered value outside a holdoff (R26 while MOVING, R28 while SETTLED), with the settlement it makes, if
any (R27). -/
def settlingTest (size band : Nat) (f : Weight) (w : Weighing) : Weighing × Bool :=
  match w.motion with
  | .moving =>
    let window := pushWindow size f.grams w.window
    if windowSettles size band window then
      ({ w with window := window, motion := .settled f.grams, settledOver := f.isOver }, true)
    else ({ w with window := window }, false)
  | .settled level =>
    if (f.grams - level).natAbs ≤ band then (w, false)
    else ({ w with motion := .moving, window := [f.grams] }, false)

/-! ## One gross sample (R22) -/

/-- A filtered value goes to the settling test, unless a holdoff applies (R26, R28, R30); a settlement goes to the Lane Counter at
once (R27). -/
def takeFiltered (l : LaneNo) (f : Weight) (s : State) : State :=
  match s.shock.holdoff with
  | some _ => s
  | none =>
    let tested := settlingTest s.settings.settleWindow (s.laneSettings l).band f (s.lane l).weighing
    let t := s.updateWeighing l fun _ => tested.1
    if tested.2 then settlementArrives l f.grams f.isOver t else t

/-- A sample enters the filter (R24). -/
def enterFilter (l : LaneNo) (g : Weight) (s : State) : State :=
  s.updateWeighing l fun w => { w with filter := pushFilter s.settings.filterDepth g w.filter }

/-- A gross sample that is a shock (R23): it is reported, the lane takes the sample as under holdoff, and its filtered value goes to no
settling test. -/
def shockSample (l : LaneNo) (g : Weight) (s : State) : State :=
  let reported := (shockReported s).updateWeighing l Weighing.underHoldoff
  enterFilter l g (reported.updateWeighing l fun w => { w with previousGross := some g.grams })

/-- A gross sample that is no shock: filter, then settling test (R22). -/
def quietSample (l : LaneNo) (g : Weight) (s : State) : State :=
  let t := enterFilter l g (s.updateWeighing l fun w => { w with previousGross := some g.grams })
  match filteredValue s.settings.filterDepth (t.lane l).weighing.filter with
  | some f => takeFiltered l f t
  | none => t

/-- A formed gross sample is processed (R22). -/
def takeSample (l : LaneNo) (g : Weight) (s : State) : State :=
  if isShock (s.laneSettings l).shockKg (s.lane l).weighing.previousGross g.grams then shockSample l g s else quietSample l g s

/-- A round's results are delivered to a lane (R12, R21): a lane in FAULT is first tested for leaving it (R57). -/
def deliverRound (l : LaneNo) (s : State) : State :=
  let t := testFault l s
  match grossSample t.engine.channels (t.lane l) with
  | some g => takeSample l g t
  | none => t

end Sys2Proof.Machine
end

