-- ==== Sys2Proof/Machine/Acquisition.lean ====
section
/-! DEFINITION. The Acquisition Engine: transactions, channel records and rounds (01, R1 to R14). The configuration read is in
Machine/Configuration.lean. -/

namespace Sys2Proof.Machine

/-! ## Channel records (R9, R10) -/

/-- The channel record after a good sample (R9). An IDLE channel gets no transaction (R8). -/
def Channel.good (sample : Sample) (c : Channel) : Channel :=
  let stored := { c with latest := some sample, result := RoundResult.good }
  match c.state with
  | .idle => c
  | .ok => { stored with failureRun := 0 }
  | .suspect => { stored with state := .ok, failureRun := 0 }
  | .faulted =>
    if 3 ≤ c.goodRun then { stored with state := .ok, failureRun := 0, goodRun := 0 }
    else { stored with goodRun := c.goodRun + 1 }

/-- The channel record after a failure (R9). -/
def Channel.fail (c : Channel) : Channel :=
  let failed := { c with result := RoundResult.failed }
  match c.state with
  | .idle => c
  | .ok => { failed with state := .suspect, failureRun := 1 }
  | .suspect =>
    if 2 ≤ c.failureRun then { failed with state := .faulted, failureRun := 3, goodRun := 0 }
    else { failed with failureRun := c.failureRun + 1 }
  | .faulted => { failed with goodRun := 0 }

/-- The lanes that a channel belongs to: those it is a weighing channel of (R10, R18). The sets are disjoint (R173). -/
def State.lanesOf (s : State) (c : ChannelNo) : List LaneNo :=
  allLanes.filter fun l => (s.lane l).weighing.channels.contains c

/-- A channel's change of state is reported to its lane (R10): entering FAULTED, or leaving it for OK. -/
def reportChannel (c : ChannelNo) (before after : ChannelState) (s : State) : State :=
  if before ≠ .faulted ∧ after = .faulted then (s.lanesOf c).foldl (fun t l => laneFaults l t) s
  else if before = .faulted ∧ after = .ok then (s.lanesOf c).foldl (fun t l => testFault l t) s
  else s

/-- A channel record changed by `f`, with its report (R9, R10). -/
def changeChannel (c : ChannelNo) (f : Channel → Channel) (s : State) : State :=
  let before := s.engine.channels.get c
  reportChannel c before.state (f before).state (s.updateChannel c f)

/-- The first good sample after a reset seeds the pseudo-random source again (R12, R169). -/
def seedFrom (raw : Int) (s : State) : State :=
  match s.station.seed.sample with
  | some _ => s
  | none => s.updateStation fun st => { st with seed := ⟨st.number, some raw⟩ }

/-- A good sample is recorded for a channel (R6, R9, R12). -/
def recordGood (c : ChannelNo) (sample : Sample) (s : State) : State :=
  changeChannel c (Channel.good sample) (seedFrom sample.raw s)

/-- A failure is recorded for a channel (R7, R9). -/
def recordFailure (c : ChannelNo) (s : State) : State := changeChannel c Channel.fail (s.count .sensorFailures 1)

/-- A completed converter transaction is judged (R4, R6). -/
def recordEnd (c : ChannelNo) (result : ConverterEnd) (s : State) : State :=
  match result with
  | .notAcknowledged => recordFailure c s
  | .bytesRead status high middle low =>
    if status.getLsbD 7 then recordGood c { raw := signed24 high middle low, isOver := status.getLsbD 6 } s
    else recordFailure c s

/-! ## Transactions (R2, R3) -/

/-- The bus check before a START (R2): with the data line high the transaction begins, with it low the bus recovery does. -/
def beginTransaction (user : BusUser) (dataHigh : Bool) (s : State) : State :=
  s.updateEngine fun e =>
    { e with transaction := some { user := user, stage := if dataHigh then .underWay s.now else .recovering s.now } }

/-- The engine has no transaction in flight and both drivers are released (R1). -/
def endTransaction (s : State) : State := s.updateEngine fun e => { e with transaction := none }

/-- A transaction's recovery or stretch wait gives way to the transaction itself, or to another stage. -/
def setStage (stage : BusStage) (s : State) : State :=
  s.updateEngine fun e => { e with transaction := e.transaction.map fun t => { t with stage := stage } }

/-! ## Rounds (R11 to R13) -/

/-- A configured channel (R8, R12). -/
def State.configured (s : State) (c : ChannelNo) : Bool := decide ((s.engine.channels.get c).state ≠ .idle)

/-- The configured channels from number `n` on, in ascending order (R12). -/
def State.channelsFrom (s : State) (n : Nat) : List ChannelNo :=
  allChannels.filter fun c => decide (n ≤ c.val) && s.configured c

/-- The round results are delivered to every Lane Weighing Unit and then set back to none (R12). -/
def deliverResults (s : State) : State :=
  (eachLane deliverRound s).updateEngine fun e =>
    { e with channels := e.channels.map fun c => { c with result := RoundResult.none } }

/-- A round starts with its first configured channel; without one it ends at once (R12). -/
def startRound (dataHigh : Bool) (s : State) : State :=
  match s.channelsFrom 0 with
  | c :: _ => beginTransaction (.channel c) dataHigh s
  | [] => deliverResults s

/-- A round ends (R12); a pending round then starts (R13). -/
def endRound (dataHigh : Bool) (s : State) : State :=
  let delivered := deliverResults (endTransaction s)
  if delivered.engine.pendingRound then
    startRound dataHigh (delivered.updateEngine fun e => { e with pendingRound := false })
  else delivered

/-- The round moves on from channel `c` (R3, R12). -/
def nextChannel (c : ChannelNo) (dataHigh : Bool) (s : State) : State :=
  match s.channelsFrom (c.val + 1) with
  | d :: _ => beginTransaction (.channel d) dataHigh s
  | [] => endRound dataHigh s

/-- Channels get a BUS STUCK failure each, the sensor bus fault flag is latched and the round ends (R2, R5). -/
def stuckRound (channels : List ChannelNo) (dataHigh : Bool) (s : State) : State :=
  endRound dataHigh ((channels.foldl (fun t c => recordFailure c t) s).latch .sensorBusFault)

/-- A round is running (R11, R13). -/
def Engine.roundRunning (e : Engine) : Bool :=
  match e.transaction with
  | some ⟨.channel _, _⟩ => true
  | some ⟨.configRead, _⟩ => false
  | none => false

/-- The round timer's tick (R11, R13, R14), which falls at `tick`; the next one falls a period later. -/
def takeTick (tick : Time) (dataHigh : Bool) (s : State) : State :=
  let t := s.updateEngine fun e => { e with roundTimer := some (tick.addUs s.settings.samplePeriodUs) }
  if s.inBrownOut then t
  else if s.engine.roundRunning then
    (t.updateEngine fun e => { e with pendingRound := true }).count .roundOverruns 1
  else startRound dataHigh t

/-- At brown-out the transaction, the round and a pending round are dropped, and nothing is recorded (R14, R171). -/
def abandonRound (s : State) : State :=
  s.updateEngine fun e =>
    { e with
      transaction := none
      pendingRound := false
      channels := e.channels.map fun c => { c with result := RoundResult.none } }

end Sys2Proof.Machine
end

