-- ==== Sys2Proof/Machine/Configuration.lean ====
section
/-! DEFINITION. The configuration read and the load (R15 to R17, R171 to R174, R176). -/

namespace Sys2Proof.Machine

/-! ## The fields of the block (11.2) -/

/-- Byte `offset` of segment `segment`. -/
def blockByte (block : List Byte) (segment offset : Nat) : Byte := block.getD (32 * segment + offset) 0

/-- A one-byte field. -/
def field8 (block : List Byte) (segment offset : Nat) : Nat := (blockByte block segment offset).toNat

/-- A two-byte field, most significant byte first. -/
def field16 (block : List Byte) (segment offset : Nat) : Nat :=
  number16 (blockByte block segment offset) (blockByte block segment (offset + 1))

/-- A three-byte field, most significant byte first. -/
def field24 (block : List Byte) (segment offset : Nat) : Nat :=
  number24 (blockByte block segment offset) (blockByte block segment (offset + 1)) (blockByte block segment (offset + 2))

/-- A four-byte field, most significant byte first. -/
def field32 (block : List Byte) (segment offset : Nat) : Word :=
  word32 (blockByte block segment offset) (blockByte block segment (offset + 1)) (blockByte block segment (offset + 2))
    (blockByte block segment (offset + 3))

/-- The station fields of segment 0 (11.2). -/
structure StationFields where
  sampleRateCode : Nat
  speedCode : Nat
  filterDepth : Nat
  settleWindow : Nat
  reportIntervalS : Nat
  forgetTimeMin : Nat
  repeatUnits : Nat
  deferenceUnits : Nat
  ownZone : Byte
  neighbours : Four Byte
  holdTime : Nat
  holdLimitMin : Nat
  buttonActiveHigh : Four Bool
  deriving DecidableEq, Repr

/-- The fields of one channel, in segment 1 or 2 (11.2). -/
structure ChannelFields where
  address : Nat
  register : Byte
  zero : Int
  gain : Nat
  deriving DecidableEq, Repr

/-- The fields of one lane, in segments 3 to 6 (11.2). -/
structure LaneFields where
  enable : Bool
  firstChannel : Nat
  channelCount : Nat
  article : Word
  mask : Word
  pack : Nat
  unitWeight : Nat
  tolerance : Nat
  band : Nat
  capacityKg : Nat
  tare : Nat
  zeroLimit : Nat
  shockKg : Nat
  reorderPoint : Nat
  emptyPoint : Nat
  hysteresis : Nat
  leadTimeMin : Nat
  deriving DecidableEq, Repr

/-- The station fields as stored (11.2, the table of segment 0). -/
def readStation (block : List Byte) : StationFields where
  sampleRateCode := field8 block 0 2
  speedCode := field8 block 0 3
  filterDepth := field8 block 0 4
  settleWindow := field8 block 0 5
  reportIntervalS := field8 block 0 6
  forgetTimeMin := field8 block 0 7
  repeatUnits := field8 block 0 8
  deferenceUnits := field8 block 0 9
  ownZone := blockByte block 0 10
  neighbours := Four.of fun i => blockByte block 0 (11 + i.val)
  holdTime := field8 block 0 15
  holdLimitMin := field8 block 0 16
  buttonActiveHigh := Four.of fun l => (blockByte block 0 17).getLsbD l.val

/-- A channel's fields as stored (11.2, the table of segments 1 and 2). -/
def readChannel (block : List Byte) (c : ChannelNo) : ChannelFields :=
  let segment := 1 + c.val / 4
  let j := c.val % 4
  { address := field8 block segment (1 + 7 * j)
    register := blockByte block segment (2 + 7 * j)
    zero := signed24 (blockByte block segment (3 + 7 * j)) (blockByte block segment (4 + 7 * j))
      (blockByte block segment (5 + 7 * j))
    gain := field16 block segment (6 + 7 * j) }

/-- A lane's fields as stored (11.2, the table of segments 3 to 6). -/
def readLane (block : List Byte) (l : LaneNo) : LaneFields :=
  let segment := 3 + l.val
  { enable := (blockByte block segment 1).getLsbD 7
    firstChannel := field8 block segment 1 / 16 % 8
    channelCount := field8 block segment 1 % 4 + 1
    article := field32 block segment 2
    mask := field32 block segment 6
    pack := field8 block segment 10
    unitWeight := field16 block segment 11
    tolerance := field16 block segment 13
    band := field16 block segment 15
    capacityKg := field16 block segment 17
    tare := field24 block segment 19
    zeroLimit := field16 block segment 22
    shockKg := field8 block segment 24
    reorderPoint := field16 block segment 25
    emptyPoint := field16 block segment 27
    hysteresis := field16 block segment 29
    leadTimeMin := field8 block segment 31 }

/-! ## Clamping (R172) -/

/-- The nearest value in a range (00, "Clamped to"). -/
def clampTo (low high n : Nat) : Nat := max low (min n high)

/-- The filter depth takes the nearest power of two below it; 0 becomes 1 and values above 16 become 16 (R172). -/
def clampDepth (n : Nat) : Nat :=
  if n < 2 then 1 else if n < 4 then 2 else if n < 8 then 4 else if n < 16 then 8 else 16

/-- The station fields clamped (R172). -/
def StationFields.clamped (f : StationFields) : StationFields :=
  { f with
    sampleRateCode := clampTo 0 3 f.sampleRateCode
    speedCode := clampTo 0 1 f.speedCode
    filterDepth := clampDepth f.filterDepth
    settleWindow := clampTo 2 32 f.settleWindow
    reportIntervalS := clampTo 10 255 f.reportIntervalS
    forgetTimeMin := clampTo 1 60 f.forgetTimeMin
    repeatUnits := clampTo 3 60 f.repeatUnits
    deferenceUnits := clampTo 1 20 f.deferenceUnits
    holdTime := clampTo 1 100 f.holdTime
    holdLimitMin := clampTo 1 120 f.holdLimitMin }

/-- A channel's fields clamped (R172). -/
def ChannelFields.clamped (f : ChannelFields) : ChannelFields :=
  { f with address := clampTo 0 127 f.address, gain := clampTo 1 65535 f.gain }

/-- A lane's fields clamped (R172). -/
def LaneFields.clamped (f : LaneFields) : LaneFields :=
  { f with
    pack := clampTo 1 255 f.pack
    unitWeight := clampTo 1 65535 f.unitWeight
    band := clampTo 1 65535 f.band
    tare := clampTo 0 8388607 f.tare
    leadTimeMin := clampTo 0 240 f.leadTimeMin }

/-- Some field of the block lies outside its legal values (R172). -/
def clampsAnything (block : List Byte) : Bool :=
  decide ((readStation block).clamped ≠ readStation block)
    || (allChannels.any fun c => decide ((readChannel block c).clamped ≠ readChannel block c))
    || (allLanes.any fun l => decide ((readLane block l).clamped ≠ readLane block l))

/-! ## Channel sets (R173) -/

/-- The run of consecutive channels that starts at the first channel and holds the stated count (11.2). -/
def LaneFields.run (f : LaneFields) : List Nat := (List.range f.channelCount).map fun i => f.firstChannel + i

/-- What is left of an enabled lane's run when channels beyond 7 and those of enabled lanes of lower number are dropped (R173). -/
def LaneFields.keptRun (f : LaneFields) (taken : List Nat) : List Nat :=
  f.run.filter fun c => decide (c ≤ 7) && !taken.contains c

/-- The channels that belong to the enabled lanes below `l` (R173). -/
def takenBelow (fields : LaneNo → LaneFields) (lanes : List LaneNo) (l : LaneNo) : List Nat :=
  (lanes.filter fun m => decide (m < l)).foldl
    (fun taken m => if (fields m).enable then taken ++ (fields m).keptRun taken else taken) []

/-- The channel set of a lane after the drops (R173); the set of a lane that is not enabled is not considered. -/
def channelSet (fields : LaneNo → LaneFields) (l : LaneNo) : List Nat :=
  if (fields l).enable then (fields l).keptRun (takenBelow fields allLanes l) else []

/-- The lane's weighing channels: those of its set whose converter address is not 0 (R173). -/
def weighingChannels (address : ChannelNo → Nat) (set : List Nat) : List ChannelNo :=
  (set.map fun c => Fin.ofNat 8 c).filter fun c => decide (address c ≠ 0)

/-- The lane drops a channel, or is enabled and turned OFF (R173). -/
def adjustsSet (address : ChannelNo → Nat) (fields : LaneNo → LaneFields) (l : LaneNo) : Bool :=
  (fields l).enable
    && (decide ((channelSet fields l).length < (fields l).run.length)
      || (weighingChannels address (channelSet fields l)).isEmpty)

/-! ## The loaded configuration (R172, R173) -/

/-- The clamped fields of a channel. -/
def loadedChannel (block : List Byte) (c : ChannelNo) : ChannelFields := (readChannel block c).clamped

/-- The clamped fields of a lane. -/
def loadedLane (block : List Byte) (l : LaneNo) : LaneFields := (readLane block l).clamped

/-- The clamped converter address of a channel. -/
def loadedAddress (block : List Byte) (c : ChannelNo) : Nat := (loadedChannel block c).address

/-- A lane's settings as every block uses them (R172, R173). -/
def laneSettingsFrom (block : List Byte) (l : LaneNo) : LaneSettings :=
  let f := loadedLane block l
  { enabled := f.enable
    channels := weighingChannels (loadedAddress block) (channelSet (loadedLane block) l)
    article := f.article
    mask := f.mask
    pack := f.pack
    unitWeight := f.unitWeight
    tolerance := f.tolerance
    band := f.band
    capacityKg := f.capacityKg
    tare := f.tare
    zeroLimit := f.zeroLimit
    shockKg := f.shockKg
    reorderPoint := f.reorderPoint
    emptyPoint := f.emptyPoint
    hysteresis := f.hysteresis
    leadTimeMin := f.leadTimeMin }

/-- The station settings as the blocks use them (R172). -/
def stationSettingsFrom (block : List Byte) : StationSettings :=
  let f := (readStation block).clamped
  { sampleRateCode := f.sampleRateCode
    fastBus := decide (f.speedCode = 1)
    filterDepth := f.filterDepth
    settleWindow := f.settleWindow
    reportIntervalS := f.reportIntervalS
    forgetTimeMin := f.forgetTimeMin
    repeatUnits := f.repeatUnits
    deferenceUnits := f.deferenceUnits
    holdLimitMin := f.holdLimitMin
    buttonActiveHigh := f.buttonActiveHigh }

/-- The configuration that a block gives. -/
def configurationFrom (block : List Byte) : Configuration :=
  { station := stationSettingsFrom block, lanes := Four.of (laneSettingsFrom block) }

/-- The block is adjusted: a field is clamped, a channel dropped or an enabled lane turned OFF (R172, R173). -/
def adjusts (block : List Byte) : Bool :=
  clampsAnything block || allLanes.any (adjustsSet (loadedAddress block) (loadedLane block))

/-! ## Load completion (R174) -/

/-- A channel record at the load (R8). -/
def Channel.loaded (f : ChannelFields) : Channel :=
  { Channel.reset with
    address := BitVec.ofNat 7 f.address
    register := f.register
    zero := f.zero
    gain := f.gain
    state := if f.address = 0 then .idle else .ok }

/-- The Acquisition Engine takes its channel records and its bus speed; its transaction is over (R174, step 1). -/
def loadEngine (block : List Byte) (s : State) : State :=
  s.updateEngine fun e =>
    { e with
      channels := Eight.of fun c => Channel.loaded (loadedChannel block c)
      transaction := none
      fastBus := (stationSettingsFrom block).fastBus }

/-- A lane that is enabled and has a weighing channel enters STARTING; the others stay OFF (R54, R173). -/
def LaneSettings.starts (c : LaneSettings) : Bool := c.enabled && !c.channels.isEmpty

/-- A lane takes its settings: its weighing channels (R18), STARTING with its report due (R54), and as debounced level the button input as
first seen (R62). -/
def Lane.load (c : LaneSettings) (activeHigh : Bool) (lane : Lane) : Lane :=
  { lane with
    weighing := { lane.weighing with channels := c.channels }
    service := { lane.service with
      state := if c.starts then .starting else .off
      reportDue := c.starts
      button := if lane.service.buttonInput == activeHigh then .active else .inactive } }

/-- The lanes take their settings (R174, step 2, and the debounce of step 5). -/
def loadLanes (c : Configuration) (s : State) : State :=
  { s with lanes := Four.of fun l => (s.lanes.get l).load (c.lanes.get l) (c.station.buttonActiveHigh.get l) }

/-- The Shock Monitor takes its zones and hold (R174, step 3, R72). -/
def loadShock (block : List Byte) (s : State) : State :=
  s.updateShock fun m =>
    { m with
      ownZone := (readStation block).ownZone
      neighbours := (readStation block).neighbours
      holdTime := (readStation block).clamped.holdTime
      configured := true }

/-- Station Control takes the configuration and enters JOINING, and the join timer starts (R174). -/
def loadStation (block : List Byte) (s : State) : State :=
  s.updateStation fun st =>
    { st with
      phase := .joining
      config := some (configurationFrom block)
      joinTimer := some { entered := s.now, survey := .notOffered } }

/-- The load completes as one event (R174); the round timer gives its first tick in it (R11). -/
def loadCompletes (block : List Byte) (dataHigh : Bool) (s : State) : State :=
  let adjusted := if adjusts block then s.latch .configAdjusted else s
  let engine := loadEngine block (loadStation block adjusted)
  let settled := loadShock block (loadLanes (configurationFrom block) engine)
  takeTick s.now dataHigh (formAndEvaluate settled)

/-! ## The read (R15 to R17, R171) -/

/-- The station enters CONFIG FAULT (R176); the FAULT BEAT origin of every lamp is now (R71). -/
def enterConfigFault (s : State) : State :=
  let lane (l : Lane) : Lane := { l with service := { l.service with faultBeatOrigin := s.now } }
  endTransaction
    { (s.updateStation fun st => { st with phase := .configFault, warmUpTimer := none }) with lanes := s.lanes.map lane }

/-- A read attempt begins with its bus check; the bytes of the attempt before it are discarded (R15, R16). -/
def beginAttempt (dataHigh : Bool) (s : State) : State :=
  beginTransaction .configRead dataHigh (s.updateStation fun st => { st with block := [] })

/-- The attempt fails: the next one follows at once, or after the third the station enters CONFIG FAULT (R17, R171). -/
def failAttempt (dataHigh : Bool) (s : State) : State :=
  let failed := (endTransaction s).updateEngine fun e => { e with failedAttempts := e.failedAttempts + 1 }
  if failed.engine.failedAttempts < 3 then beginAttempt dataHigh failed else enterConfigFault failed

/-- The attempt fails with kind BUS STUCK, which latches the sensor bus fault flag (R17). -/
def stuckAttempt (dataHigh : Bool) (s : State) : State := failAttempt dataHigh (s.latch .sensorBusFault)

/-- The tag of a segment (11.2). -/
def segmentTag (segment : Nat) : Byte := BitVec.ofNat 8 (0xA0 + segment)

/-- The engine's check over bytes 0 to 253, run as they arrive (R15): its register after the bytes read so far. -/
def runningCheck (block : List Byte) : BitVec 16 := checkWord (block.take 254)

/-- The check over bytes 0 to 253 equals the check word of bytes 254 and 255 (R15, R16). -/
def blockChecks (block : List Byte) : Bool := decide (block.drop 254 = checkChars (runningCheck block))

/-- A whole block has been read and checked: a layout version other than 1 is refused, version 1 is loaded (R171). -/
def readSucceeds (block : List Byte) (dataHigh : Bool) (s : State) : State :=
  if field8 block 0 1 = 1 then loadCompletes block dataHigh s else enterConfigFault s

/-- The pause at the end of a segment: Station Control compares the tag, and the read goes on, fails, or is complete (R16). -/
def segmentEnds (bytes : List Byte) (dataHigh : Bool) (s : State) : State :=
  let segment := s.station.block.length / 32
  let taken := s.updateStation fun st => { st with block := st.block ++ bytes }
  if bytes.head? ≠ some (segmentTag segment) then failAttempt dataHigh taken
  else if segment < 7 then setStage (.underWay s.now) taken
  else if blockChecks taken.station.block then readSucceeds taken.station.block dataHigh taken
  else failAttempt dataHigh taken

/-- A configuration attempt is under way: neither in its bus recovery nor failed with STRETCH. -/
def Engine.reading (e : Engine) : Bool :=
  match e.transaction with
  | some ⟨.configRead, .underWay _⟩ => true
  | some ⟨.configRead, .recovering _⟩ => false
  | some ⟨.configRead, .stretched _⟩ => false
  | some ⟨.channel _, _⟩ => false
  | none => false

/-- The memory has yet to acknowledge its address or offset bytes, as steps 2, 3 and 5 of R15 ask: no byte of the block has been read. -/
def State.addressing (s : State) : Bool := s.engine.reading && s.station.block.isEmpty

end Sys2Proof.Machine
end

