-- ==== Sys2Proof/Machine/Line.lean ====
section
/-! DEFINITION. The Line Controller: error counts, reception and filtering, attempts (06, R86 to R103). -/

namespace Sys2Proof.Machine

/-! ## Error counts and the line state (R97, R98) -/

/-- The line becomes LISTEN-ONLY: the second timer starts, the flag is latched and the Alert Controller is told (R98, R165). -/
def enterListenOnly (s : State) : State :=
  eachGroup alertListenOnly
    (State.latch .listenOnlyEntered
      (s.updateLine fun lc => { lc with state := .listenOnly, secondTimer := some (s.now.addMs 1000) }))

/-- The line becomes ACTIVE: the second timer stops (R98). No alert record changes (R165). -/
def enterActive (s : State) : State := s.updateLine fun lc => { lc with state := .active, secondTimer := none }

/-- The line state after a change of a count (R98). -/
def checkLineState (s : State) : State :=
  match s.line.state with
  | .active => if 128 ≤ s.line.tecCount ∨ 128 ≤ s.line.recCount then enterListenOnly s else s
  | .listenOnly => if s.line.tecCount ≤ 95 ∧ s.line.recCount ≤ 95 then enterActive s else s

/-- TEC increases by 8, stopping at 255 (R97). -/
def raiseTec (s : State) : State :=
  checkLineState (s.updateLine fun lc => { lc with tecCount := min (lc.tecCount + 8) 255 })

/-- TEC decreases by 1, unless it is 0 (R97). -/
def lowerTec (s : State) : State := checkLineState (s.updateLine fun lc => { lc with tecCount := lc.tecCount - 1 })

/-- REC increases by 1, stopping at 255 (R97). -/
def raiseRec (s : State) : State :=
  checkLineState (s.updateLine fun lc => { lc with recCount := min (lc.recCount + 1) 255 })

/-- REC decreases by 1, unless it is 0 (R97). -/
def lowerRec (s : State) : State := checkLineState (s.updateLine fun lc => { lc with recCount := lc.recCount - 1 })

/-! ## The receiver (R86 to R90) -/

/-- The receiver after a frame has ended (R86, R89): WAIT IDLE, which it leaves at once for READY where the line counts as idle already
(R87: after a gap). -/
def LineUse.receiverAfter : LineUse → Receiver
  | .idle _ => .ready
  | .busyOwn => .waitIdle
  | .busyOther => .waitIdle

/-- The receiver enters WAIT IDLE, and a frame in reception is discarded. -/
def waitIdle (s : State) : State := s.updateLine fun lc => { lc with receiver := lc.use.receiverAfter }

/-- A frame is in reception. -/
def Receiver.receiving : Receiver → Bool
  | .inFrame _ _ => true
  | .waitIdle => false
  | .ready => false
  | .readback => false

/-! ## The measurement of the line (R82; log 23, log 29) -/

/-- The HIGH time after which the line is idle, in microseconds: 24 bit times (R82). -/
def idleUs : Nat := 24 * bitUs

/-- The line has been LOW while the receiver listened, so it is busy otherwise than through an own attempt (R82, R92): the level seen now,
and the end of the last bit time in which the line was seen LOW. -/
def heardLow (level : LineLevel) (lowEnd : Time) (s : State) : State :=
  s.updateLine fun lc => { lc with use := .busyOther, level := level, lowEnd := lowEnd }

/-- The line has been LOW, and unless an own attempt is on it, it is busy otherwise (R82, R92). -/
def foreignLow (level : LineLevel) (lowEnd : Time) (s : State) : State :=
  match s.line.attempt with
  | none => heardLow level lowEnd s
  | some _ => s

/-- A bit time begins now in which the line is LOW (R82). -/
def lowBegins (s : State) : State := foreignLow .low (s.now.addUs bitUs) s

/-- A character whose stop bit began `us` microseconds ago has been heard: its last LOW bit time ended where its last data bits of 1, or
its stop bit, began. -/
def heardCharacter (us : Nat) (value : Byte) (s : State) : State :=
  heardLow .high (s.now.subUs (us + highTail value * bitUs)) s

/-- Half a bit time in microseconds: what has passed of a stop bit that is read in its middle (R82, R83). -/
def halfBitUs : Nat := bitUs / 2

/-- The moment the 24th bit time of HIGH is completed, if the line stays HIGH (R82). -/
def LineController.idleFrom (lc : LineController) : Time := lc.lowEnd.addUs idleUs

/-- The moment from which the line counts as idle, if it does now: the 24th bit time of HIGH after its last LOW one (R82). In a frame in
reception, whose characters come with its last event, that moment is the command's own (log 23). -/
def LineController.idleSince (now : Time) (lc : LineController) : Time := if lc.receiver.receiving then now else lc.idleFrom

/-- The line has been HIGH for 24 bit times (R82): it is idle, and a receiver in WAIT IDLE enters READY (R86). A frame in reception goes
on: a gap of up to 20 bit times after a character that ends in HIGH bits can make the line idle (R87). -/
def becomesIdle (s : State) : State :=
  s.updateLine fun lc =>
    { lc with
      use := .idle (lc.idleSince s.now)
      level := .high
      receiver := match lc.receiver with
        | .waitIdle => .ready
        | .ready => .ready
        | .inFrame chars stopEnd => .inFrame chars stopEnd
        | .readback => .readback }

/-- The line can become idle now: it is not, no attempt is in progress, and 24 bit times have passed since it was seen LOW last, or since
the reset (R81, R82). -/
def LineController.mayBecomeIdle (now : Time) (lc : LineController) : Bool :=
  (match lc.use with
    | .idle _ => false
    | .busyOwn => true
    | .busyOther => true)
  && lc.attempt.isNone && lc.idleFrom.notAfter now

/-- A line error (R89, R100): the frame in reception is discarded, the code and its note are set, and REC and the counter
increase. -/
def lineError (code : LineError) (s : State) : State :=
  let noted := (waitIdle s).updateStation fun st => { st with notes := { st.notes with errorCode := true } }
  raiseRec ((noted.updateLine fun lc => { lc with lastError := code }).count .lineErrors 1)

/-- A framing fault (R83), at the moment the line returns HIGH: in IN FRAME a FRAMING error (R87), in READY no frame begins (R86). -/
def framingFaultSeen (s : State) : State :=
  match s.line.receiver with
  | .inFrame _ _ => lineError .framing (heardLow .high s.now s)
  | .ready => waitIdle (heardLow .high s.now s)
  | .waitIdle => foreignLow .high s.now s
  | .readback => s

/-- A break (R83), at the end of the 12th LOW bit time: a frame in reception is discarded without a line error, and the receiver waits for
idle (R86, R89). -/
def breakSeen (s : State) : State :=
  match s.line.receiver with
  | .inFrame _ _ => waitIdle (heardLow .low s.now s)
  | .ready => waitIdle (heardLow .low s.now s)
  | .waitIdle => foreignLow .low s.now s
  | .readback => s

/-- How long a character lasts in microseconds (R82). -/
def characterUs : Nat := 10 * bitUs

/-- The mark of every frame (R84). -/
def mark : Byte := 0xC5#8

/-- The end of the last LOW bit time before a gap of `gap` microseconds that ends now: the last character's, but for its HIGH end. -/
def gapLowEnd (chars : List Byte) (gap : Nat) (now : Time) : Time :=
  now.subUs (gap + bitUs + highTail (chars.getLast?.getD mark) * bitUs)

/-- The line as the gap leaves it: idle, if the gap and the HIGH end of the character before it make 24 bit times (R82, R87). -/
def LineController.afterGap (lowEnd now : Time) (lc : LineController) : LineController :=
  { lc with
    level := .high
    lowEnd := lowEnd
    use := if (lowEnd.addUs idleUs).notAfter now then .idle (lowEnd.addUs idleUs) else .busyOther }

/-- The gap after the characters of a frame in reception passes 20 bit times (R87). It cannot end before the characters and the gap have
passed since the end of the mark's stop bit. -/
def gapPasses (chars : List Byte) (gap : Nat) (s : State) : State :=
  match s.line.receiver with
  | .inFrame _ stopEnd =>
    if (stopEnd.addUs (characterUs * chars.length + gap)).notAfter s.now then
      lineError .length (s.updateLine (LineController.afterGap (gapLowEnd chars gap s.now) s.now))
    else s
  | .waitIdle => s
  | .ready => s
  | .readback => s

/-- A body length above 40 is received, in the middle of its stop bit (R83, R87). -/
def lengthTooLong (length : Byte) (s : State) : State :=
  if s.line.receiver.receiving then lineError .length (heardCharacter halfBitUs length s) else s

/-- The first character received in READY, in the middle of its stop bit (R83, R86). -/
def readyCharacter (value : Byte) (s : State) : State :=
  match s.line.receiver with
  | .ready =>
    (heardCharacter halfBitUs value s).updateLine fun lc =>
      { lc with receiver := if value = mark then .inFrame [mark] (s.now.addUs halfBitUs) else .waitIdle }
  | .waitIdle => s
  | .inFrame _ _ => s
  | .readback => s

/-! ## Receive filtering (R101 to R103) -/

/-- A frame is filtered out: counted, and it reaches no block (R101). -/
def filterOut (s : State) : State := s.count .framesFilteredOut 1

/-- A station number, 1 to 60 (R84). -/
def isStation (sender : Nat) : Bool := decide (1 ≤ sender) && decide (sender ≤ 60)

/-- A gateway number, 61 to 63 (R84). -/
def isGateway (sender : Nat) : Bool := decide (61 ≤ sender) && decide (sender ≤ 63)

/-- A test of the existing group of a number. -/
def State.groupTest (s : State) (test : GroupRecord → Bool) (g : GroupNo) : Bool :=
  match s.group g with
  | some gr => test gr.record
  | none => false

/-- An own group matches the article (00, "Masks and matching"). -/
def State.holdsArticle (s : State) (article : Word) : Bool :=
  allGroups.any (s.groupTest fun r => matchesGroup article r.key r.mask)

/-- The own group with this key and mask: "the same group" (00, "Masks and matching"). -/
def State.findGroup (s : State) (key mask : Word) : Option GroupNo :=
  allGroups.find? (s.groupTest fun r => r.key == key && r.mask == mask)

/-- An own lane that is not OFF is named by a listed pair (R102). -/
def State.surveyNames (s : State) (pairs : List (Word × Word)) : Bool :=
  allLanes.any fun l =>
    decide ((s.lane l).service.state ≠ .off) && pairs.any (pairMatches (s.laneSettings l).article)

/-- The report that a STOCK carries, if its lane, lane state and confidence codes are in their sets (R102); a pack of 0 is taken as 1. -/
def stockReport (sender lane : Nat) (article : Word) (pack count stateCode confidenceCode : Nat) (arrival : Time) :
    Option PeerEntry :=
  if h : lane < 4 then
    match stockState stateCode, confidenceOf confidenceCode with
    | some state, some confidence =>
      some
        { sender := sender
          lane := ⟨lane, h⟩
          article := article
          pack := if pack = 0 then 1 else pack
          count := count
          state := state
          confidence := confidence
          arrival := arrival
          age := .fresh }
    | some _, none => none
    | none, _ => none
  else none

/-- A STOCK is kept or filtered out (R102). -/
def filterStock (sender : Nat) (report : Option PeerEntry) (s : State) : State :=
  match report with
  | some e => if isStation sender && s.holdsArticle e.article then takeReport e s else filterOut s
  | none => filterOut s

/-- A SURVEY is kept or filtered out (R102). -/
def filterSurvey (sender : Nat) (pairs : List (Word × Word)) (s : State) : State :=
  if isStation sender && s.surveyNames pairs then surveyHeard pairs s else filterOut s

/-- A DISTURB is kept or filtered out (R102). -/
def filterDisturb (sender : Nat) (zone : Byte) (hold : Nat) (s : State) : State :=
  if isStation sender && s.shock.applies zone then disturbHeard zone hold s else filterOut s

/-- A RAISE is kept or filtered out (R102). -/
def filterRaise (sender : Nat) (key mask : Word) (levelCode qualityCode : Nat) (s : State) : State :=
  match s.findGroup key mask, shortageOf levelCode with
  | some g, some level =>
    if isStation sender && decide (qualityCode ≤ 2) then raiseHeard g sender level s else filterOut s
  | some _, none => filterOut s
  | none, _ => filterOut s

/-- A CLEAR is kept or filtered out (R102). -/
def filterClear (sender : Nat) (key mask : Word) (s : State) : State :=
  match s.findGroup key mask with
  | some g => if isStation sender then clearHeard g sender s else filterOut s
  | none => filterOut s

/-- A frame of a gateway kind from another sender is refused (R103). -/
def fromGateway (sender : Nat) (keep : State → State) (s : State) : State :=
  if isGateway sender then keep s else refuseGateway s

/-- A TAKE is refused, kept or filtered out (R103); a duration of 0 is a release (R161). -/
def filterTake (sender : Nat) (key mask : Word) (terminal : Byte) (minutes : Nat) (s : State) : State :=
  fromGateway sender (fun s =>
    match s.findGroup key mask with
    | some g => if minutes = 0 then releaseHeard g terminal s else takeHeard g terminal minutes s
    | none => filterOut s) s

/-- A QUERY is refused, kept or filtered out (R103); Station Control offers a STATUS (R180). -/
def filterQuery (sender target : Nat) (s : State) : State :=
  fromGateway sender (fun s => if target = s.number then offer .status s else filterOut s) s

/-- The reset of the whole part with the recorded cause (R169, R178). The input pins keep their levels. -/
def resetPart (cause : ResetCause) (s : State) : State :=
  State.afterReset cause s.station.supplyGood (s.lanes.map fun lane => lane.service.buttonInput) s.choices s.pending

/-- A RESTART is refused, kept or filtered out (R103); the reset happens at the frame's arrival time (R178). -/
def filterRestart (sender target : Nat) (s : State) : State :=
  fromGateway sender (fun s => if target = s.number then resetPart .restart s else filterOut s) s

/-- The filter by kind (R102, R103). -/
def filterByKind (sender : Nat) (body : RxBody) (s : State) : State :=
  match body with
  | .stock lane article pack count stateCode confidenceCode =>
    filterStock sender (stockReport sender lane article pack count stateCode confidenceCode s.now) s
  | .survey pairs => filterSurvey sender pairs s
  | .disturb zone hold => filterDisturb sender zone hold s
  | .raise key mask levelCode qualityCode _ _ => filterRaise sender key mask levelCode qualityCode s
  | .clear key mask => filterClear sender key mask s
  | .take key mask terminal minutes => filterTake sender key mask terminal minutes s
  | .query target => filterQuery sender target s
  | .status => filterOut s
  | .restart target => filterRestart sender target s

/-- The tests of the sender, in their order, before the filter by kind (R101). -/
def filterFrame (sender : Nat) (body : RxBody) (s : State) : State :=
  if validNumber s.station.number = false then filterOut s
  else if sender = 0 then filterOut s
  else if sender = s.number then s.latch .numberClash
  else filterByKind sender body s

/-- The line as the last character of a frame leaves it, at the end of its stop bit (R88). -/
def heardFrame (chars : List Byte) (s : State) : State := heardCharacter bitUs (chars.getLast?.getD mark) s

/-- A complete frame is received (R88): a good one lowers REC and goes to the filter, and any other is a line error. -/
def frameReceived (chars : List Byte) (s : State) : State :=
  if s.line.receiver.receiving then
    match judge chars with
    | .good sender body => filterFrame sender body (lowerRec (waitIdle (heardFrame chars s)))
    | .error code => lineError code (heardFrame chars s)
    | .incomplete => s
  else s

/-! ## Beginning an attempt (R91 to R93) -/

/-- The moment at which a line that counts as idle since `since`, after 24 bit times of HIGH, has been idle for 24 + 8c bit times (R91). -/
def gapEnd (priority : Nat) (since : Time) : Time := since.addUs (8 * priority * bitUs)

/-- The line has been idle for 24 + 8c bit times (R91). -/
def LineUse.idleFor (use : LineUse) (priority : Nat) (now : Time) : Bool :=
  match use with
  | .idle since => (gapEnd priority since).notAfter now
  | .busyOwn => false
  | .busyOther => false

/-- Everything that R91 asks for an attempt of the best eligible entry but the gap. -/
def awaitsGap (e : Entry) (s : State) : Bool :=
  decide (s.line.state = .active) && !s.inBrownOut && s.line.attempt.isNone && validNumber s.station.number
    && (decide (s.station.phase ≠ .configFault) || decide (e.body = .status))

/-- An attempt of the entry may begin now (R91). -/
def mayBegin (e : Entry) (s : State) : Bool := awaitsGap e s && s.line.use.idleFor e.body.priority s.now

/-- The deferral of an entry's first attempt is counted (R92). -/
def countDeferral (e : Entry) (s : State) : State := if !e.tried && e.busySeen then s.count .deferrals 1 else s

/-- How long the characters of a frame last on the line, in microseconds (R82, R84). -/
def frameUs (frame : List Byte) : Nat := frame.length * characterUs

/-- The frame is formed from the entry, with the capture of a STATUS, and the station starts driving it (R93, R180). -/
def startSending (e : Entry) (s : State) : State :=
  let frame := s.frameOf e.body
  let captured := if e.body = .status then captureStatus s else s
  { captured with
    queue := putOnLine s.queue
    line := { s.line with
      attempt := some { stage := .sending, frame := frame, began := s.now, ends := s.now.addUs (frameUs frame) }
      receiver := .readback
      use := .busyOwn } }

/-- The best eligible entry begins an attempt, if it may (R91). The spec does not order the deferral count and the capture of a STATUS
(log 6). -/
def attemptBegins (s : State) : State :=
  match bestEligible s.queue with
  | none => s
  | some e => if mayBegin e s then inEitherOrder (countDeferral e) (startSending e) s else s

/-! ## How an attempt ends (R93 to R96) -/

/-- The end of the last LOW bit time of the attempt in progress, `us` microseconds after it began to send its frame (R82, R93). -/
def LineController.sentLowEnd (us : Nat) (lc : LineController) : Time :=
  match lc.attempt with
  | none => lc.lowEnd
  | some a =>
    match lastLowUs (frameBits a.frame) us with
    | some low => a.began.addUs low
    | none => lc.lowEnd

/-- How long the frame of the attempt in progress lasts, in microseconds. -/
def LineController.sendingUs (lc : LineController) : Nat :=
  match lc.attempt with
  | none => 0
  | some a => frameUs a.frame

/-- The attempt in progress becomes none and the receiver enters WAIT IDLE (R93, R95). The station drove the line LOW up to `lowEnd`. -/
def endAttempt (lowEnd : Time) (s : State) : State :=
  s.updateLine fun lc => { lc with attempt := none, receiver := .waitIdle, level := .high, lowEnd := lowEnd }

/-- The owner of a sent entry is told (R112): R155 for a RAISE, R175 for the SURVEY, R181 for a STATUS. -/
def tellSent (b : Body) (s : State) : State :=
  match b with
  | .raise group _ _ _ _ _ _ => raiseSentOutcome group s
  | .survey _ => surveySettled s
  | .status => statusReduction s
  | .stock _ _ _ _ _ _ => s
  | .disturb _ _ => s
  | .clear _ _ _ => s

/-- The owner of a discarded entry is told (R112): a lane's report is due again. -/
def tellDiscarded (b : Body) (s : State) : State :=
  match b with
  | .stock lane _ _ _ _ _ => laneReport lane s
  | .raise group _ _ _ _ _ _ => raiseDiscardedOutcome group s
  | .survey _ => surveySettled s
  | .disturb _ _ => s
  | .clear _ _ _ => s
  | .status => s

/-- The collision counters at a sent frame (R93). -/
def countCollisions (attempts : Nat) (s : State) : State :=
  if attempts = 1 then s.count .singleCollisions 1
  else if 2 ≤ attempts ∧ attempts ≤ 7 then s.count .multipleCollisions 1
  else s

/-- The ON LINE entry leaves the queue with an outcome told to its owner; room is announced, in no given order with it (R112). -/
def removeOnLine (tell : State → State) (s : State) : State :=
  inEitherOrder tell announceRoom { s with queue := dropOnLine s.queue }

/-- The frame of the ON LINE entry has been sent (R93). R93 and R181 do not say whether the collision counters of R93 are counted before or
after a sent STATUS takes off what it carried; the model's choice is before (log 30). -/
def frameIsSent (s : State) : State :=
  let lowEnd := s.line.sentLowEnd s.line.sendingUs
  let lowered := lowerTec s
  match onLineEntry lowered.queue with
  | none => endAttempt lowEnd lowered
  | some e => removeOnLine (tellSent e.body) (endAttempt lowEnd (countCollisions e.attempts lowered))

/-- The length of a jam in microseconds: 16 bit times (R94). -/
def jamUs : Nat := 16 * bitUs

/-- The station stops its frame and begins a jam (R94). -/
def startJam (a : Attempt) (s : State) : State :=
  s.updateLine fun lc =>
    { lc with attempt := some { a with stage := .jamming, began := s.now, ends := s.now.addUs jamUs } }

/-- The backoff unit in microseconds: 64 bit times (R95). -/
def backoffUs : Nat := 64 * bitUs

/-- A backoff after collision `n` (R95): a random r sets the not-before time, and the entry returns to WAITING (R110). -/
def backOff (n : Nat) (jamEnds : Time) (s : State) : State :=
  let drawn := s.draw (2 ^ min n 6)
  let notBefore := jamEnds.addUs (drawn.1 * backoffUs)
  returnEntry (fun e => { e with attempts := n, notBefore := notBefore, passed := notBefore.notAfter s.now }) drawn.2

/-- The entry is discarded at its 8th collision (R95): counted, TEC increases by 8 and the owner is told. -/
def discardEntry (b : Body) (s : State) : State :=
  inEitherOrder raiseTec (removeOnLine (tellDiscarded b)) (s.count .excessiveCollisionDiscards 1)

/-- The jam ends, at the moment given (R95). -/
def jamEnds (ended : Time) (s : State) : State :=
  match onLineEntry s.queue with
  | none => endAttempt ended s
  | some e =>
    if e.attempts + 1 < 8 then backOff (e.attempts + 1) ended (endAttempt ended s)
    else discardEntry e.body (endAttempt ended s)

/-- The station enters brown-out with an attempt in progress, perhaps (R96). -/
def abandonAttempt (s : State) : State :=
  match s.line.attempt with
  | none => s
  | some a =>
    match a.stage with
    | .sending => returnEntry id (endAttempt (s.line.sentLowEnd (a.began.usUntil s.now)) s)
    | .jamming => jamEnds s.now s

/-! ## Timers of the line -/

/-- A full 50 ms of stuck line (R99). -/
def stuckExpires (since : Time) (s : State) : State :=
  raiseTec (State.latch .lineStuck (s.updateLine fun lc => { lc with stuckSince := some (since.addMs 50) }))

/-- The listen-only second timer expires (R98). -/
def secondPasses (expiry : Time) (s : State) : State :=
  lowerTec (s.updateLine fun lc => { lc with secondTimer := some (expiry.addMs 1000) })

end Sys2Proof.Machine
end

