-- ==== Sys2Proof/Machine/StartUp.lean ====
section
/-! DEFINITION. Station Control: resets, warm-up, brown-out and joining (11, R169, R170, R175 to R178). -/

namespace Sys2Proof.Machine

/-! ## The end of RESET and the warm-up (R169, R170) -/

/-- The warm-up time in milliseconds (R170). -/
def warmUpMs : Nat := 500

/-- The warm-up timer starts (R170). -/
def startWarmUp (s : State) : State := s.updateStation fun st => { st with warmUpTimer := some (s.now.addMs warmUpMs) }

/-- The clock starts at 0 and the straps are read (R169). With the supply input low the station enters brown-out at that moment (R177), and
the warm-up timer does not run (R170). -/
def resetEnds (straps : BitVec 6) (s : State) : State :=
  let started := s.updateStation fun st =>
    { st with
      clock := Time.zero
      number := straps
      seed := ⟨straps, none⟩
      brownOut := if st.supplyGood then .none else .low }
  if validNumber straps then
    let warming := started.updateStation fun st => { st with phase := .warmUp }
    if warming.inBrownOut then warming else startWarmUp warming
  else enterConfigFault started

/-- The reset of a RESTART lasts only for its moment (R169, R178): where a frame has reset the part, RESET ends in the same event. -/
def restartEnds (straps : BitVec 6) (s : State) : State := if s.station.phase = .reset then resetEnds straps s else s

/-- The warm-up timer has expired (R170): LOADING, with the first attempt of the configuration read. -/
def warmUpEnds (dataHigh : Bool) (s : State) : State :=
  beginAttempt dataHigh (s.updateStation fun st => { st with phase := .loading, warmUpTimer := none })

/-! ## Brown-out (R177) -/

/-- The level of the supply-monitor input pin. -/
def setSupply (good : Bool) (s : State) : State := s.updateStation fun st => { st with supplyGood := good }

/-- The bytes of a configuration attempt that the brown-out abandons are discarded (R171). -/
def dropAttemptBytes (s : State) : State :=
  if s.station.phase = .loading then s.updateStation fun st => { st with block := [] } else s

/-- The station enters brown-out, or a fall within the 100 ms restarts the measurement (R177): the warm-up timer is stopped (R170), the
sensor bus is released (R14, R171) and an attempt on the aisle bus is cut off (R96). -/
def enterBrownOut (s : State) : State :=
  let fallen := s.updateStation fun st => { st with supplyGood := false, brownOut := .low, warmUpTimer := none }
  abandonAttempt (abandonRound (dropAttemptBytes fallen))

/-- The time the supply must be good in milliseconds (R177). -/
def supplyMs : Nat := 100

/-- The supply-monitor input has risen: in brown-out its 100 ms start (R177). -/
def supplyRises (s : State) : State :=
  s.updateStation fun st =>
    { st with
      supplyGood := true
      brownOut := match st.brownOut with
        | .low => .high (s.now.addMs supplyMs)
        | .high ends => .high ends
        | .none => .none }

/-- The brown-out can end now (R177). -/
def StationControl.supplyHeld (st : StationControl) : Bool :=
  match st.brownOut with
  | .high ends => ends.notAfter st.clock
  | .low => false
  | .none => false

/-- The brown-out ends and the phase continues (R177). -/
def brownOutEnds (dataHigh : Bool) (s : State) : State :=
  let ended := s.updateStation fun st => { st with brownOut := .none }
  match ended.station.phase with
  | .warmUp => startWarmUp ended
  | .loading => beginAttempt dataHigh ended
  | .joining => eachLane laneBrownOutEnd ended
  | .running => eachLane laneBrownOutEnd ended
  | .configFault => ended
  | .reset => ended

/-! ## Joining (R175) -/

/-- The moment of the SURVEY offer has come (R175): 3,000 ms after the entry into JOINING. -/
def JoinTimer.surveyDue (j : JoinTimer) (now : Time) : Bool :=
  decide (j.survey = .notOffered) && (j.entered.addMs 3000).notAfter now

/-- JOINING may end (R175): 4,000 ms after the SURVEY's outcome, or 30,000 ms after the entry. -/
def JoinTimer.ended (j : JoinTimer) (now : Time) : Bool :=
  (j.entered.addMs 30000).notAfter now
    || match j.survey with
      | .settled moment => (moment.addMs 4000).notAfter now
      | .notOffered => false
      | .offered => false

/-- The keys and masks of the own groups, in group order (R175). -/
def State.groupPairs (s : State) : List (Word × Word) :=
  allGroups.filterMap fun g => (s.group g).map fun gr => (gr.record.key, gr.record.mask)

/-- Station Control offers its SURVEY, or takes it as discarded when there are no groups (R175). -/
def joinSurvey (j : JoinTimer) (s : State) : State :=
  let noted := s.updateStation fun st => { st with joinTimer := some { j with survey := .offered } }
  if s.groupPairs.isEmpty then surveySettled noted else offerSurvey s.groupPairs noted

/-- The report interval I in milliseconds (R115). -/
def State.reportMs (s : State) : Nat := s.settings.reportIntervalS * 1000

/-- The report phase in milliseconds (R115). -/
def State.reportPhaseMs (s : State) : Nat := s.number * 97 % s.reportMs

/-- The rate tick's period in milliseconds (R137). -/
def rateMs : Nat := 60000

/-- JOINING ends as one event (R175): RUNNING, the timers start (R115, R137), every report is due (R67) and every CLEAR record is tested
(R166). -/
def joiningEnds (s : State) : State :=
  let running := s.updateStation fun st => { st with phase := .running, joinTimer := none }
  let timers :=
    { running with
      reportTimer := some (s.now.addMs (s.reportPhaseMs + s.reportMs))
      rateTick := some (s.now.addMs rateMs) }
  eachGroup testClear (eachLane laneReport timers)

/-- The report timer expires (R115): every lane's report is due, and the next expiry is one interval later. -/
def reportsFall (expiry : Time) (s : State) : State :=
  eachLane laneReport { s with reportTimer := some (expiry.addMs s.reportMs) }

/-- The rate tick falls (R137): every group takes it, and the next one is 60 s later. -/
def rateTickFalls (tick : Time) (s : State) : State :=
  eachGroup groupRateTick { s with rateTick := some (tick.addMs rateMs) }

end Sys2Proof.Machine
end

