-- ==== Sys2Proof/Machine/AisleEvents.lean ====
section
/-! DEFINITION. The meanings of the timers of the Peer View, the Group Evaluator and the Alert Controller. -/

namespace Sys2Proof.Machine

/-- ENTRY_AGED (R123). -/
def execEntryAged (elapsed : Nat) (sender : Nat) (lane : LaneNo) (s : State) : Host.Outcome State Fault Refusal :=
  .next (timed elapsed (ageEntry sender lane) s)

/-- ENTRY_FORGOTTEN (R124). -/
def execEntryForgotten (elapsed : Nat) (sender : Nat) (lane : LaneNo) (s : State) : Host.Outcome State Fault Refusal :=
  .next (timed elapsed (forgetEntry sender lane) s)

/-- RATE_TICK (R137, R138). -/
def execRateTick (elapsed : Nat) (s : State) : Host.Outcome State Fault Refusal :=
  .next (timed elapsed (fun s =>
    match s.rateTick with
    | some tick => if tick.notAfter s.now then rateTickFalls tick s else s
    | none => s) s)

/-- DEFERENCE_EXPIRY (R153). -/
def execDeferenceExpiry (elapsed : Nat) (group : GroupNo) (s : State) : Host.Outcome State Fault Refusal :=
  .next (timed elapsed (fun s => s.onGroup group fun gr s =>
    if gr.alert.state = .pending ∧ due gr.alert.deference s.now = true then deferenceExpired group gr s else s) s)

/-- REPEAT_EXPIRY (R154). -/
def execRepeatExpiry (elapsed : Nat) (group : GroupNo) (s : State) : Host.Outcome State Fault Refusal :=
  .next (timed elapsed (fun s => s.onGroup group fun gr s =>
    if gr.alert.state = .raised ∧ due gr.alert.repeatTimer s.now = true then repeatRaise group s else s) s)

/-- WATCH_EXPIRY (R159). -/
def execWatchExpiry (elapsed : Nat) (group : GroupNo) (s : State) : Host.Outcome State Fault Refusal :=
  .next (timed elapsed (fun s => s.onGroup group fun gr s =>
    if gr.alert.state = .following ∧ due gr.alert.watch s.now = true then pendingOrClear group s else s) s)

/-- TAKEN_EXPIRY (R162). -/
def execTakenExpiry (elapsed : Nat) (group : GroupNo) (s : State) : Host.Outcome State Fault Refusal :=
  .next (timed elapsed (fun s => s.onGroup group fun gr s =>
    if gr.alert.state = .taken ∧ due gr.alert.takenUntil s.now = true then pendingOrClear group s else s) s)

end Sys2Proof.Machine
end

