-- ==== Sys2Proof/Machine/FrameEvents.lean ====
section
/-! DEFINITION. The meanings of the good frames received (R88, R101 to R103). Each is the shared reception of a complete frame; the rows
differ in the kind that the characters spell, and a RESTART that is taken ends its reset at once. -/

namespace Sys2Proof.Machine

/-- STOCK_RECEIVED (R118). -/
def execStockReceived (elapsed : Nat) (chars : List Byte) (s : State) : Host.Outcome State Fault Refusal :=
  checked (goodOk RxBody.isStock chars) (timed elapsed (frameReceived chars) s)

/-- SURVEY_RECEIVED (R129). -/
def execSurveyReceived (elapsed : Nat) (chars : List Byte) (s : State) : Host.Outcome State Fault Refusal :=
  checked (goodOk RxBody.isSurvey chars) (timed elapsed (frameReceived chars) s)

/-- DISTURB_RECEIVED (R77). -/
def execDisturbReceived (elapsed : Nat) (chars : List Byte) (s : State) : Host.Outcome State Fault Refusal :=
  checked (goodOk RxBody.isDisturb chars) (timed elapsed (frameReceived chars) s)

/-- RAISE_RECEIVED (R156, R157). -/
def execRaiseReceived (elapsed : Nat) (chars : List Byte) (s : State) : Host.Outcome State Fault Refusal :=
  checked (goodOk RxBody.isRaise chars) (timed elapsed (frameReceived chars) s)

/-- CLEAR_RECEIVED (R158). -/
def execClearReceived (elapsed : Nat) (chars : List Byte) (s : State) : Host.Outcome State Fault Refusal :=
  checked (goodOk RxBody.isClear chars) (timed elapsed (frameReceived chars) s)

/-- TAKE (R160). -/
def execTake (elapsed : Nat) (chars : List Byte) (s : State) : Host.Outcome State Fault Refusal :=
  checked (goodOk RxBody.isTake chars) (timed elapsed (frameReceived chars) s)

/-- TAKE_RELEASE (R161). -/
def execTakeRelease (elapsed : Nat) (chars : List Byte) (s : State) : Host.Outcome State Fault Refusal :=
  checked (goodOk RxBody.isRelease chars) (timed elapsed (frameReceived chars) s)

/-- QUERY (R180). -/
def execQuery (elapsed : Nat) (chars : List Byte) (s : State) : Host.Outcome State Fault Refusal :=
  checked (goodOk RxBody.isQuery chars) (timed elapsed (frameReceived chars) s)

/-- RESTART (R178). -/
def execRestart (elapsed : Nat) (frame : RestartFrame) (s : State) : Host.Outcome State Fault Refusal :=
  checked (goodOk RxBody.isRestart frame.chars)
    (timed elapsed (fun s => restartEnds frame.straps (frameReceived frame.chars s)) s)

/-- STATUS_FRAME_RECEIVED (R102). -/
def execStatusFrameReceived (elapsed : Nat) (chars : List Byte) (s : State) : Host.Outcome State Fault Refusal :=
  checked (goodOk RxBody.isStatus chars) (timed elapsed (frameReceived chars) s)

end Sys2Proof.Machine
end

