-- ==== Sys2Proof/Machine/LaneEvents.lean ====
section
/-! DEFINITION. The meanings of the commands of the lanes: buttons, lamps, hold limit, reports and holdoff. -/

namespace Sys2Proof.Machine

/-! ## Buttons (R62 to R66) -/

/-- The level of a button input pin. -/
def setButton (l : LaneNo) (high : Bool) (s : State) : State := s.updateService l fun sv => { sv with buttonInput := high }

/-- A button input takes a level (R62): a change starts or restarts the debounce count, or ends it. -/
def buttonChanges (l : LaneNo) (high : Bool) (s : State) : State :=
  if (s.lane l).service.buttonInput = high then s else startDebounce l (setButton l high s)

/-- BUTTON_INPUT_CHANGE (R62): in RESET only the pin changes. -/
def execButtonInputChange (elapsed : Nat) (lane : LaneNo) (high : Bool) (s : State) : Host.Outcome State Fault Refusal :=
  .next (if s.station.phase = .reset then setButton lane high s else timed elapsed (buttonChanges lane high) s)

/-- PRESS (R62, R63). -/
def execPress (elapsed : Nat) (lane : LaneNo) (s : State) : Host.Outcome State Fault Refusal :=
  .next (timed elapsed (fun s => if debounced lane .active s then pressTaken lane s else s) s)

/-- RELEASE (R62, R63, R64). -/
def execRelease (elapsed : Nat) (lane : LaneNo) (s : State) : Host.Outcome State Fault Refusal :=
  .next (timed elapsed (fun s => if debounced lane .inactive s then releaseTaken lane s else s) s)

/-- The press becomes spent at its 3 s mark and the long press is taken (R63, R65). -/
def markReached (l : LaneNo) (s : State) : State :=
  longPressTaken l (s.updateService l fun sv => { sv with press := .spent })

/-- LONG_PRESS (R63, R65). -/
def execLongPress (elapsed : Nat) (lane : LaneNo) (s : State) : Host.Outcome State Fault Refusal :=
  .next (timed elapsed (fun s => if due (s.lane lane).service.press.mark s.now then markReached lane s else s) s)

/-- The refusal flash's length in milliseconds (R66). -/
def flashMs : Nat := 1500

/-- The refusal flash of a lane has run its length (R66). -/
def Service.flashOver (sv : Service) (now : Time) : Bool := sv.flash && (sv.refuseOrigin.addMs flashMs).notAfter now

/-- REFUSAL_FLASH_END (R66). -/
def execRefusalFlashEnd (elapsed : Nat) (lane : LaneNo) (s : State) : Host.Outcome State Fault Refusal :=
  .next (timed elapsed (fun s =>
    if (s.lane lane).service.flashOver s.now then s.updateService lane fun sv => { sv with flash := false } else s) s)

/-! ## Lamp pattern origins (R68) -/

/-- An origin that lies 2,000 ms or more in the past is moved forward by 2,000 ms (R68). -/
def advanceOrigin (now origin : Time) : Time := if (origin.addMs 2000).notAfter now then origin.addMs 2000 else origin

/-- The origin named is moved forward, if it lies far enough in the past (R68). -/
def originAdvances (origin : OriginName) (s : State) : State :=
  match origin with
  | .refuse l => s.updateService l fun sv => { sv with refuseOrigin := advanceOrigin s.now sv.refuseOrigin }
  | .holdBeat l => s.updateService l fun sv => { sv with holdBeatOrigin := advanceOrigin s.now sv.holdBeatOrigin }
  | .faultBeat l => s.updateService l fun sv => { sv with faultBeatOrigin := advanceOrigin s.now sv.faultBeatOrigin }
  | .group g => s.updateGroup g fun gr => { gr with alert := { gr.alert with origin := advanceOrigin s.now gr.alert.origin } }

/-- PATTERN_ORIGIN_ADVANCE (R68). -/
def execPatternOriginAdvance (elapsed : Nat) (origin : OriginName) (s : State) : Host.Outcome State Fault Refusal :=
  .next (timed elapsed (originAdvances origin) s)

/-! ## Hold limit, reports and holdoff -/

/-- HOLD_TIMER_EXPIRY (R58). -/
def execHoldTimerExpiry (elapsed : Nat) (lane : LaneNo) (s : State) : Host.Outcome State Fault Refusal :=
  .next (timed elapsed (fun s =>
    if (s.lane lane).service.state = .held ∧ due (s.lane lane).service.holdTimer s.now = true then
      changeLane lane (Lane.enterResuming s.now) s
    else s) s)

/-- REPORT_TIMER_EXPIRY (R115). -/
def execReportTimerExpiry (elapsed : Nat) (s : State) : Host.Outcome State Fault Refusal :=
  .next (timed elapsed (fun s =>
    match s.reportTimer with
    | some expiry => if expiry.notAfter s.now then reportsFall expiry s else s
    | none => s) s)

/-- A lane's survey delay has ended (R116): it stops and the report is due. -/
def surveyDelayEnds (l : LaneNo) (s : State) : State :=
  laneReport l (s.updateService l fun sv => { sv with surveyDelay := none })

/-- SURVEY_DELAY_END (R116). -/
def execSurveyDelayEnd (elapsed : Nat) (lane : LaneNo) (s : State) : Host.Outcome State Fault Refusal :=
  .next (timed elapsed (fun s =>
    if due (s.lane lane).service.surveyDelay s.now then surveyDelayEnds lane s else s) s)

/-- HOLDOFF_EXPIRY (R78). -/
def execHoldoffExpiry (elapsed : Nat) (s : State) : Host.Outcome State Fault Refusal :=
  .next (timed elapsed (fun s => if due s.shock.holdoff s.now then holdoffEnds s else s) s)

/-- SEND_INHIBIT_EXPIRY (R75). -/
def execSendInhibitExpiry (elapsed : Nat) (s : State) : Host.Outcome State Fault Refusal :=
  .next (timed elapsed (fun s =>
    if due s.shock.sendInhibit s.now then s.updateShock fun m => { m with sendInhibit := none } else s) s)

end Sys2Proof.Machine
end

