-- ==== Sys2Proof/Machine/LineEvents.lean ====
section
/-! DEFINITION. The meanings of the commands of the aisle bus line and of the Transmit Queue's own timers. -/

namespace Sys2Proof.Machine

/-- LINE_IDLE (R82, R86). -/
def execLineIdle (elapsed : Nat) (s : State) : Host.Outcome State Fault Refusal :=
  .next (timed elapsed (fun s => if s.line.mayBecomeIdle s.now then becomesIdle s else s) s)

/-- LINE_BUSY (R82, R92), at the beginning of a LOW bit time (log 29): the busy-seen marks and the stuck measurement follow from the line's
state (keepUp). -/
def execLineBusy (elapsed : Nat) (s : State) : Host.Outcome State Fault Refusal := .next (timed elapsed lowBegins s)

/-- READY_CHARACTER_RECEIVED (R86). -/
def execReadyCharacterReceived (elapsed : Nat) (value : Byte) (s : State) : Host.Outcome State Fault Refusal :=
  .next (timed elapsed (readyCharacter value) s)

/-- FRAMING_FAULT (R83, R86, R87). -/
def execFramingFault (elapsed : Nat) (s : State) : Host.Outcome State Fault Refusal :=
  .next (timed elapsed framingFaultSeen s)

/-- BREAK (R83, R86, R87). -/
def execLineBreak (elapsed : Nat) (s : State) : Host.Outcome State Fault Refusal := .next (timed elapsed breakSeen s)

/-- FRAME_GAP_TIMEOUT (R87). The characters before the gap are discarded. -/
def execFrameGapTimeout (gap : FrameGap) (s : State) : Host.Outcome State Fault Refusal :=
  checked (gapOk gap.chars gap.gap) (timed gap.elapsed (gapPasses gap.chars gap.gap) s)

/-- BODY_LENGTH_TOO_LONG (R87). The characters of the frame that ends with it are discarded. -/
def execBodyLengthTooLong (elapsed : Nat) (_sender _kind length : Byte) (s : State) : Host.Outcome State Fault Refusal :=
  checked (tooLongOk length) (timed elapsed (lengthTooLong length) s)

/-- FRAME_REJECTED (R88). -/
def execFrameRejected (elapsed : Nat) (chars : List Byte) (s : State) : Host.Outcome State Fault Refusal :=
  checked (rejectedOk chars) (timed elapsed (frameReceived chars) s)

/-- ATTEMPT_BEGIN (R91 to R93). -/
def execAttemptBegin (elapsed : Nat) (s : State) : Host.Outcome State Fault Refusal :=
  .next (timed elapsed attemptBegins s)

/-- FRAME_SENT (R93): at the end of the last stop bit. -/
def execFrameSent (elapsed : Nat) (s : State) : Host.Outcome State Fault Refusal :=
  .next (timed elapsed (fun s =>
    match s.line.attempt with
    | some ⟨.sending, _, _, ends⟩ => if ends.notAfter s.now then frameIsSent s else s
    | some ⟨.jamming, _, _, _⟩ => s
    | none => s) s)

/-- COLLISION (R94): before the frame's end. -/
def execCollision (elapsed : Nat) (s : State) : Host.Outcome State Fault Refusal :=
  .next (timed elapsed (fun s =>
    match s.line.attempt with
    | some ⟨.sending, frame, began, ends⟩ =>
      if s.now.notAfter ends then startJam ⟨.sending, frame, began, ends⟩ s else s
    | some ⟨.jamming, _, _, _⟩ => s
    | none => s) s)

/-- JAM_END (R95). -/
def execJamEnd (elapsed : Nat) (s : State) : Host.Outcome State Fault Refusal :=
  .next (timed elapsed (fun s =>
    match s.line.attempt with
    | some ⟨.jamming, _, _, ends⟩ => if ends.notAfter s.now then jamEnds ends s else s
    | some ⟨.sending, _, _, _⟩ => s
    | none => s) s)

/-- NOT_BEFORE_PASSED (R106). -/
def execNotBeforePassed (elapsed : Nat) (s : State) : Host.Outcome State Fault Refusal :=
  .next (timed elapsed notBeforeReached s)

/-- STUCK_MEASUREMENT_EXPIRY (R99). -/
def execStuckMeasurementExpiry (elapsed : Nat) (s : State) : Host.Outcome State Fault Refusal :=
  .next (timed elapsed (fun s =>
    match s.line.stuckSince with
    | some since => if (since.addMs 50).notAfter s.now then stuckExpires since s else s
    | none => s) s)

/-- LISTEN_ONLY_SECOND_TIMER (R98). -/
def execListenOnlySecondTimer (elapsed : Nat) (s : State) : Host.Outcome State Fault Refusal :=
  .next (timed elapsed (fun s =>
    match s.line.secondTimer with
    | some expiry => if expiry.notAfter s.now then secondPasses expiry s else s
    | none => s) s)

/-- DISTURB_EXPIRY (R111). -/
def execDisturbExpiry (elapsed : Nat) (s : State) : Host.Outcome State Fault Refusal :=
  .next (timed elapsed removeExpired s)

end Sys2Proof.Machine
end

