-- ==== Sys2Proof/Machine/SensorBusEvents.lean ====
section
/-! DEFINITION. The meanings of the commands of the sensor bus: converter transactions, rounds and the configuration read. -/

namespace Sys2Proof.Machine

/-- The bus is stuck after a recovery (R2, R5): the channels from the one about to be served on fail and the round ends, or the
configuration attempt fails. -/
def stuckAfterRecovery (user : BusUser) (dataHigh : Bool) (s : State) : State :=
  match user with
  | .channel c => stuckRound (s.channelsFrom c.val) dataHigh s
  | .configRead => stuckAttempt dataHigh s

/-- The STOP after a STRETCH failure (R5): the transaction has failed and the round moves on, or the attempt has failed. -/
def stretchStops (user : BusUser) (dataHigh : Bool) (s : State) : State :=
  match user with
  | .channel c => nextChannel c dataHigh (recordFailure c s)
  | .configRead => failAttempt dataHigh s

/-- The bus is held after a STRETCH failure (R5): that failure stands alone for its channel, and every later channel of the round gets
BUS STUCK; for an attempt the kind stays STRETCH (R15). -/
def busIsHeld (user : BusUser) (dataHigh : Bool) (s : State) : State :=
  match user with
  | .channel c => stuckRound (s.channelsFrom (c.val + 1)) dataHigh (recordFailure c s)
  | .configRead => failAttempt dataHigh s

/-- The limit of a clock hold, and of the wait for the STOP after a STRETCH failure, in milliseconds (R5). -/
def heldMs : Nat := 2

/-- The bytes of the current segment that came before a hold have been handed to Station Control as they were received (R15, log 31). -/
def handOver (user : BusUser) (received : List Byte) (s : State) : State :=
  match user with
  | .configRead => s.updateStation fun st => { st with block := st.block ++ received }
  | .channel _ => s

/-- A hold was not seen high in time (R5): the transaction waits for the clock line, or a recovery ends as stuck. No hold of a stage ends in
failure earlier than 2 ms after the stage began. -/
def holdFails (t : Transaction) (received : List Byte) (dataHigh : Bool) (s : State) : State :=
  match t.stage with
  | .underWay since =>
    if (since.addMs heldMs).notAfter s.now then setStage (.stretched s.now) (handOver t.user received s) else s
  | .recovering since => if (since.addMs heldMs).notAfter s.now then stuckAfterRecovery t.user dataHigh s else s
  | .stretched _ => s

/-- CONFIG_SEGMENT_END (R16). -/
def execConfigSegmentEnd (elapsed : Nat) (bytes : List Byte) (dataHigh : Bool) (s : State) :
    Host.Outcome State Fault Refusal :=
  checked (segmentOk bytes) (timed elapsed (fun s => if s.engine.reading then segmentEnds bytes dataHigh s else s) s)

/-- CONFIG_ACKNOWLEDGE_MISSING (R15): in step 2, 3 or 5, before any byte is read. -/
def execConfigAcknowledgeMissing (elapsed : Nat) (dataHigh : Bool) (s : State) : Host.Outcome State Fault Refusal :=
  .next (timed elapsed (fun s => if s.addressing then failAttempt dataHigh s else s) s)

/-- ROUND_TICK (R11, R13, R14). -/
def execRoundTick (elapsed : Nat) (dataHigh : Bool) (s : State) : Host.Outcome State Fault Refusal :=
  .next (timed elapsed (fun s =>
    match s.engine.roundTimer with
    | some tick => if tick.notAfter s.now then takeTick tick dataHigh s else s
    | none => s) s)

/-- CONVERTER_TRANSACTION_COMPLETE (R3, R4, R6, R9, R12). -/
def execConverterTransactionComplete (elapsed : Nat) (result : ConverterEnd) (dataHigh : Bool) (s : State) :
    Host.Outcome State Fault Refusal :=
  .next (timed elapsed (fun s =>
    match s.engine.transaction with
    | some ⟨.channel c, .underWay _⟩ => nextChannel c dataHigh (recordEnd c result s)
    | some ⟨.channel _, .recovering _⟩ => s
    | some ⟨.channel _, .stretched _⟩ => s
    | some ⟨.configRead, _⟩ => s
    | none => s) s)

/-- STRETCH_TIMEOUT (R5). -/
def execStretchTimeout (elapsed : Nat) (hold : HoldFailure) (s : State) : Host.Outcome State Fault Refusal :=
  checked (receivedOk hold.received) (timed elapsed (fun s =>
    match s.engine.transaction with
    | some t => holdFails t hold.received hold.dataHigh s
    | none => s) s)

/-- STRETCH_STOP (R5): the clock line has risen no later than 2 ms after the STRETCH failure. -/
def execStretchStop (elapsed : Nat) (dataHigh : Bool) (s : State) : Host.Outcome State Fault Refusal :=
  .next (timed elapsed (fun s =>
    match s.engine.transaction with
    | some ⟨user, .stretched failedAt⟩ =>
      if s.now.notAfter (failedAt.addMs heldMs) then stretchStops user dataHigh s else s
    | some ⟨_, .underWay _⟩ => s
    | some ⟨_, .recovering _⟩ => s
    | none => s) s)

/-- BUS_HELD (R5): still low 2 ms after the STRETCH failure. -/
def execBusHeld (elapsed : Nat) (dataHigh : Bool) (s : State) : Host.Outcome State Fault Refusal :=
  .next (timed elapsed (fun s =>
    match s.engine.transaction with
    | some ⟨user, .stretched failedAt⟩ =>
      if (failedAt.addMs heldMs).notAfter s.now then busIsHeld user dataHigh s else s
    | some ⟨_, .underWay _⟩ => s
    | some ⟨_, .recovering _⟩ => s
    | none => s) s)

/-- BUS_RECOVERY_COMPLETE (R2): the data line is checked again. -/
def execBusRecoveryComplete (elapsed : Nat) (dataHigh : Bool) (s : State) : Host.Outcome State Fault Refusal :=
  .next (timed elapsed (fun s =>
    match s.engine.transaction with
    | some ⟨user, .recovering _⟩ =>
      if dataHigh then setStage (.underWay s.now) s else stuckAfterRecovery user dataHigh s
    | some ⟨_, .underWay _⟩ => s
    | some ⟨_, .stretched _⟩ => s
    | none => s) s)

end Sys2Proof.Machine
end

