-- ==== Sys2Proof/Machine/StationEvents.lean ====
section
/-! DEFINITION. The meanings of the commands that Station Control takes: resets, warm-up, supply monitor and joining. -/

namespace Sys2Proof.Machine

/-- POWER_ON_RESET (R169). -/
def execPowerOnReset (s : State) : Host.Outcome State Fault Refusal := .next (resetPart .powerOn s)

/-- RESET_INPUT (R169): in RESET it only lengthens it, and the recorded cause stays. -/
def execResetInput (s : State) : Host.Outcome State Fault Refusal :=
  .next (if s.station.phase = .reset then s else resetPart .resetInput s)

/-- RESET_END (R169): only RESET has an end. -/
def execResetEnd (straps : BitVec 6) (s : State) : Host.Outcome State Fault Refusal :=
  .next (if s.station.phase = .reset then resetEnds straps s else s)

/-- WARM_UP_END (R170). -/
def execWarmUpEnd (elapsed : Nat) (dataHigh : Bool) (s : State) : Host.Outcome State Fault Refusal :=
  .next (timed elapsed (fun s => if due s.station.warmUpTimer s.now then warmUpEnds dataHigh s else s) s)

/-- SUPPLY_MONITOR_LOW (R177): in RESET only the pin changes. -/
def execSupplyMonitorLow (elapsed : Nat) (s : State) : Host.Outcome State Fault Refusal :=
  .next (if s.station.phase = .reset then setSupply false s else timed elapsed enterBrownOut s)

/-- SUPPLY_MONITOR_HIGH (R177): in RESET only the pin changes. -/
def execSupplyMonitorHigh (elapsed : Nat) (s : State) : Host.Outcome State Fault Refusal :=
  .next (if s.station.phase = .reset then setSupply true s else timed elapsed supplyRises s)

/-- BROWN_OUT_END (R177). -/
def execBrownOutEnd (elapsed : Nat) (dataHigh : Bool) (s : State) : Host.Outcome State Fault Refusal :=
  .next (timed elapsed (fun s => if s.station.supplyHeld then brownOutEnds dataHigh s else s) s)

/-- JOIN_SURVEY_OFFER (R175). -/
def execJoinSurveyOffer (elapsed : Nat) (s : State) : Host.Outcome State Fault Refusal :=
  .next (timed elapsed (fun s =>
    match s.station.joinTimer with
    | some j => if j.surveyDue s.now then joinSurvey j s else s
    | none => s) s)

/-- JOINING_END (R175). -/
def execJoiningEnd (elapsed : Nat) (s : State) : Host.Outcome State Fault Refusal :=
  .next (timed elapsed (fun s =>
    match s.station.joinTimer with
    | some j => if j.ended s.now then joiningEnds s else s
    | none => s) s)

end Sys2Proof.Machine
end

