-- ==== Sys2Proof/Machine/Dispatch.lean ====
section
/-! DEFINITION. One arm per command, each one direct call of its meaning. -/

namespace Sys2Proof.Machine

/-- The effect of a command on everything but the queue of waiting commands. -/
def exec (i : Instr) (s : State) : Host.Outcome State Fault Refusal :=
  match i with
  | .powerOnReset => Sys2Proof.Machine.execPowerOnReset s
  | .resetInput => Sys2Proof.Machine.execResetInput s
  | .resetEnd straps => Sys2Proof.Machine.execResetEnd straps s
  | .warmUpEnd elapsed dataHigh => Sys2Proof.Machine.execWarmUpEnd elapsed dataHigh s
  | .configSegmentEnd elapsed bytes dataHigh => Sys2Proof.Machine.execConfigSegmentEnd elapsed bytes dataHigh s
  | .configAcknowledgeMissing elapsed dataHigh => Sys2Proof.Machine.execConfigAcknowledgeMissing elapsed dataHigh s
  | .roundTick elapsed dataHigh => Sys2Proof.Machine.execRoundTick elapsed dataHigh s
  | .converterTransactionComplete elapsed result dataHigh => Sys2Proof.Machine.execConverterTransactionComplete elapsed result dataHigh s
  | .stretchTimeout elapsed hold => Sys2Proof.Machine.execStretchTimeout elapsed hold s
  | .stretchStop elapsed dataHigh => Sys2Proof.Machine.execStretchStop elapsed dataHigh s
  | .busHeld elapsed dataHigh => Sys2Proof.Machine.execBusHeld elapsed dataHigh s
  | .supplyMonitorLow elapsed => Sys2Proof.Machine.execSupplyMonitorLow elapsed s
  | .supplyMonitorHigh elapsed => Sys2Proof.Machine.execSupplyMonitorHigh elapsed s
  | .brownOutEnd elapsed dataHigh => Sys2Proof.Machine.execBrownOutEnd elapsed dataHigh s
  | .lineIdle elapsed => Sys2Proof.Machine.execLineIdle elapsed s
  | .lineBusy elapsed => Sys2Proof.Machine.execLineBusy elapsed s
  | .framingFault elapsed => Sys2Proof.Machine.execFramingFault elapsed s
  | .lineBreak elapsed => Sys2Proof.Machine.execLineBreak elapsed s
  | .frameGapTimeout gap => Sys2Proof.Machine.execFrameGapTimeout gap s
  | .bodyLengthTooLong elapsed sender kind length => Sys2Proof.Machine.execBodyLengthTooLong elapsed sender kind length s
  | .frameRejected elapsed chars => Sys2Proof.Machine.execFrameRejected elapsed chars s
  | .stockReceived elapsed chars => Sys2Proof.Machine.execStockReceived elapsed chars s
  | .surveyReceived elapsed chars => Sys2Proof.Machine.execSurveyReceived elapsed chars s
  | .disturbReceived elapsed chars => Sys2Proof.Machine.execDisturbReceived elapsed chars s
  | .raiseReceived elapsed chars => Sys2Proof.Machine.execRaiseReceived elapsed chars s
  | .clearReceived elapsed chars => Sys2Proof.Machine.execClearReceived elapsed chars s
  | .take elapsed chars => Sys2Proof.Machine.execTake elapsed chars s
  | .takeRelease elapsed chars => Sys2Proof.Machine.execTakeRelease elapsed chars s
  | .query elapsed chars => Sys2Proof.Machine.execQuery elapsed chars s
  | .restart elapsed frame => Sys2Proof.Machine.execRestart elapsed frame s
  | .statusFrameReceived elapsed chars => Sys2Proof.Machine.execStatusFrameReceived elapsed chars s
  | .attemptBegin elapsed => Sys2Proof.Machine.execAttemptBegin elapsed s
  | .frameSent elapsed => Sys2Proof.Machine.execFrameSent elapsed s
  | .collision elapsed => Sys2Proof.Machine.execCollision elapsed s
  | .jamEnd elapsed => Sys2Proof.Machine.execJamEnd elapsed s
  | .notBeforePassed elapsed => Sys2Proof.Machine.execNotBeforePassed elapsed s
  | .stuckMeasurementExpiry elapsed => Sys2Proof.Machine.execStuckMeasurementExpiry elapsed s
  | .listenOnlySecondTimer elapsed => Sys2Proof.Machine.execListenOnlySecondTimer elapsed s
  | .disturbExpiry elapsed => Sys2Proof.Machine.execDisturbExpiry elapsed s
  | .buttonInputChange elapsed lane high => Sys2Proof.Machine.execButtonInputChange elapsed lane high s
  | .press elapsed lane => Sys2Proof.Machine.execPress elapsed lane s
  | .release elapsed lane => Sys2Proof.Machine.execRelease elapsed lane s
  | .longPress elapsed lane => Sys2Proof.Machine.execLongPress elapsed lane s
  | .refusalFlashEnd elapsed lane => Sys2Proof.Machine.execRefusalFlashEnd elapsed lane s
  | .patternOriginAdvance elapsed origin => Sys2Proof.Machine.execPatternOriginAdvance elapsed origin s
  | .holdTimerExpiry elapsed lane => Sys2Proof.Machine.execHoldTimerExpiry elapsed lane s
  | .reportTimerExpiry elapsed => Sys2Proof.Machine.execReportTimerExpiry elapsed s
  | .surveyDelayEnd elapsed lane => Sys2Proof.Machine.execSurveyDelayEnd elapsed lane s
  | .holdoffExpiry elapsed => Sys2Proof.Machine.execHoldoffExpiry elapsed s
  | .sendInhibitExpiry elapsed => Sys2Proof.Machine.execSendInhibitExpiry elapsed s
  | .entryAged elapsed sender lane => Sys2Proof.Machine.execEntryAged elapsed sender lane s
  | .entryForgotten elapsed sender lane => Sys2Proof.Machine.execEntryForgotten elapsed sender lane s
  | .rateTick elapsed => Sys2Proof.Machine.execRateTick elapsed s
  | .deferenceExpiry elapsed group => Sys2Proof.Machine.execDeferenceExpiry elapsed group s
  | .repeatExpiry elapsed group => Sys2Proof.Machine.execRepeatExpiry elapsed group s
  | .watchExpiry elapsed group => Sys2Proof.Machine.execWatchExpiry elapsed group s
  | .takenExpiry elapsed group => Sys2Proof.Machine.execTakenExpiry elapsed group s
  | .joinSurveyOffer elapsed => Sys2Proof.Machine.execJoinSurveyOffer elapsed s
  | .joiningEnd elapsed => Sys2Proof.Machine.execJoiningEnd elapsed s
  | .busRecoveryComplete elapsed dataHigh => Sys2Proof.Machine.execBusRecoveryComplete elapsed dataHigh s
  | .readyCharacterReceived elapsed value => Sys2Proof.Machine.execReadyCharacterReceived elapsed value s

end Sys2Proof.Machine
end

