-- ==== Sys2Proof/Machine/Signals.lean ====
section
/-! DEFINITION. What stands on the wires between two commands (log 21): bits of the aisle bus (R82, R83, R84, R93, R94), and on the sensor
bus the course of a transaction and the levels of its two lines (R1 to R5, R15, R16). -/

namespace Sys2Proof.Machine

/-! ## The aisle bus -/

/-- The byte of eight data bits, least significant first (R82). -/
def byteOfBits (bits : List Bool) : Byte :=
  BitVec.ofNat 8 (bits.foldr (fun b n => 2 * n + (if b then 1 else 0)) 0)

/-- How the receiver judges what a falling edge opens (R83). -/
inductive CharacterEnd where
  | glitch
  | received (value : Byte)
  | framingFault
  | lineBreak
  deriving DecidableEq, Repr

/-- The judgement of a character (R83): the reading of the start bit, the data bits, the stop bit, and, where that is LOW, how many
consecutive bit times the line is LOW before it returns HIGH. -/
def judgeCharacter (start : Bool) (data : List Bool) (stop : Bool) (lowRun : Nat) : CharacterEnd :=
  if start then .glitch
  else if stop then .received (byteOfBits data)
  else if lowRun < 12 then .framingFault
  else .lineBreak

/-- Whether an own attempt drives the line LOW at `us` microseconds after its stage began (R82, R93, R94). -/
def Attempt.drivesLow (a : Attempt) (us : Nat) : Bool :=
  match a.stage with
  | .sending => (frameBits a.frame)[us / bitUs]? == some false
  | .jamming => decide (us < jamUs)

/-- The station drives the line LOW now (R82): outside its own attempts its driver is released. The ATX output is then high (11.7). -/
def State.drivesLow (s : State) : Bool :=
  match s.line.attempt with
  | some a => a.drivesLow ((a.began.msFrom s.now) * 1000 + (s.now.us.val : Int) - (a.began.us.val : Int)).toNat
  | none => false

/-- The first bit time of an attempt in which a collision is found (R94): the reading differs from the level driven, or it is the 12th
consecutive LOW one. `lows` is the run of LOW readings so far, `place` the number of the next bit time. -/
def collisionFrom (place lows : Nat) : List Bool → List Bool → Option Nat
  | driven :: ds, read :: rs =>
    if read != driven then some place
    else if !read && decide (11 ≤ lows) then some place
    else collisionFrom (place + 1) (if read then 0 else lows + 1) ds rs
  | [], _ => none
  | _ :: _, [] => none

/-- The first bit time of a frame in which a collision is found, if any (R94); none means that the frame is sent (R93). -/
def collisionAt (driven read : List Bool) : Option Nat := collisionFrom 0 0 driven read

/-! ## The sensor bus: acts and levels -/

/-- What the engine does on the sensor bus, with what its partner answers (R1 to R5, R15, R16). -/
inductive BusAct where
  /-- A START from the idle bus. -/
  | start
  /-- A START without a STOP before it. -/
  | repeatedStart
  /-- A STOP: the clock line driven low, data low, clock high, data released, with the level the partner leaves on the data line. -/
  | stop (dataHigh : Bool)
  /-- A byte sent by the engine, and whether the partner acknowledges it. -/
  | send (value : Byte) (acknowledged : Bool)
  /-- The eight bits of a byte read from the partner. -/
  | receive (value : Byte)
  /-- The acknowledge bit of a byte read: given by the engine or not. -/
  | acknowledge (given : Bool)
  /-- The clock line held low by the engine at the end of a segment (R16). -/
  | pause
  /-- A clock pulse of the bus recovery, with the data driver released and the level the partner leaves on the data line (R2). -/
  | pulse (dataHigh : Bool)
  /-- The wait of R5, with the level the partner leaves on the data line: the clock driver released until the clock line rises, and then
  driven low, so that the STOP that follows sets the data line low while the clock line is low (log 21). R5 names no drive of the data
  line in the wait; that the data driver is released too is the model's choice (log 32). -/
  | wait (dataHigh : Bool)
  deriving DecidableEq, Repr

/-- The levels of the two lines, HIGH as true. As the drive of one side: released as true, driven low as false (1.1). -/
structure BusLevels where
  clock : Bool
  data : Bool
  deriving DecidableEq, Repr

/-- A line is high while neither side drives it low (1.1). -/
def BusLevels.meet (engine partner : BusLevels) : BusLevels :=
  ⟨engine.clock && partner.clock, engine.data && partner.data⟩

/-- A byte's bits, most significant first (R1). -/
def bitsOf (value : Byte) : List Bool := [7, 6, 5, 4, 3, 2, 1, 0].map fun i => value.getLsbD i

/-- One bit of a side that drives the data line, around its clock pulse: the data line changes while the clock line is low (R1). -/
def bitDrives (clock data : Bool) : List BusLevels := [⟨!clock, data⟩, ⟨true, data⟩, ⟨!clock, data⟩]

/-- What the engine drives in an act, moment by moment (R1 to R5, R16). It alone drives the clock line in the bits. -/
def BusAct.engineDrives : BusAct → List BusLevels
  | .start => [⟨true, true⟩, ⟨true, false⟩, ⟨false, false⟩]
  | .repeatedStart => [⟨false, true⟩, ⟨true, true⟩, ⟨true, false⟩, ⟨false, false⟩]
  | .stop _ => [⟨false, false⟩, ⟨true, false⟩, ⟨true, true⟩]
  | .send value _ => (bitsOf value ++ [true]).flatMap (bitDrives true)
  | .receive _ => (List.replicate 8 true).flatMap (bitDrives true)
  | .acknowledge given => bitDrives true (!given)
  | .pause => [⟨false, true⟩]
  | .pulse _ => bitDrives true true
  | .wait _ => [⟨true, true⟩, ⟨true, true⟩, ⟨false, true⟩]

/-- What the partner drives in an act, moment by moment: the acknowledge bit of a byte sent to it, the bits of a byte it sends, and the
clock line where it holds it low (R1, R5). -/
def BusAct.partnerDrives : BusAct → List BusLevels
  | .start => List.replicate 3 ⟨true, true⟩
  | .repeatedStart => List.replicate 4 ⟨true, true⟩
  | .stop dataHigh => List.replicate 3 ⟨true, dataHigh⟩
  | .send _ acknowledged => (List.replicate 8 true ++ [!acknowledged]).flatMap (bitDrives false)
  | .receive value => (bitsOf value).flatMap (bitDrives false)
  | .acknowledge _ => bitDrives false true
  | .pause => [⟨true, true⟩]
  | .pulse dataHigh => bitDrives false dataHigh
  | .wait dataHigh => [⟨false, dataHigh⟩, ⟨true, dataHigh⟩, ⟨true, dataHigh⟩]

/-- The levels of the two lines in an act, moment by moment. -/
def BusAct.levels (a : BusAct) : List BusLevels := List.zipWith BusLevels.meet a.engineDrives a.partnerDrives

/-- The levels of a course of acts on a bus that was idle before it. -/
def courseLevels (acts : List BusAct) : List BusLevels := ⟨true, true⟩ :: acts.flatMap BusAct.levels

/-- A START between two moments: the data line falls while the clock line is high (R1). -/
def isStart (a b : BusLevels) : Bool := a.clock && b.clock && a.data && !b.data

/-- A STOP between two moments: the data line rises while the clock line is high (R1). -/
def isStop (a b : BusLevels) : Bool := a.clock && b.clock && !a.data && b.data

/-- How often two neighbouring moments pass a test. -/
def edges (test : BusLevels → BusLevels → Bool) (moments : List BusLevels) : Nat :=
  (moments.zip moments.tail).countP fun p => test p.1 p.2

/-- The data line changes between two moments in which the clock line is not low throughout. -/
def isHighChange (a b : BusLevels) : Bool := a.data != b.data && (a.clock || b.clock)

/-! ## The sensor bus: the courses -/

/-- An address byte (R1): the 7-bit address followed by the direction, 0 for write and 1 for read. -/
def addressByte (address : BitVec 7) (reading : Bool) : Byte := address ++ BitVec.ofBool reading

/-- A converter transaction (R3), with the four bytes that the converter answers. -/
def converterCourse (address : BitVec 7) (register status high middle low : Byte) : List BusAct :=
  [.start, .send (addressByte address false) true, .send register true, .repeatedStart, .send (addressByte address true) true,
    .receive status, .acknowledge true, .receive high, .acknowledge true, .receive middle, .acknowledge true,
    .receive low, .acknowledge false, .stop true]

/-- The configuration memory's address (R15). -/
def memoryAddress : BitVec 7 := 0x5C

/-- The 32 bytes of a segment (R16): each is acknowledged, the last one after the pause and only if the read goes on. -/
def segmentCourse (bytes : List Byte) (goesOn : Bool) : List BusAct :=
  (bytes.take 31).flatMap (fun b => [.receive b, .acknowledge true])
    ++ [.receive (bytes.getD 31 0), .pause, .acknowledge goesOn]

/-- The segments from number `segment` on (R16): the read goes on after each but the last while the tags are right, and otherwise a STOP
ends it. -/
def segmentsCourse (segment : Nat) : List (List Byte) → List BusAct
  | [] => []
  | bytes :: rest =>
    if bytes.head? = some (segmentTag segment) ∧ segment < 7 then
      segmentCourse bytes true ++ segmentsCourse (segment + 1) rest
    else segmentCourse bytes false ++ [.stop true]

/-- An attempt of the configuration read (R15, R16), with the segments that the memory answers. -/
def configCourse (segments : List (List Byte)) : List BusAct :=
  [.start, .send (addressByte memoryAddress false) true, .send 0 true, .send 0 true, .repeatedStart,
    .send (addressByte memoryAddress true) true] ++ segmentsCourse 0 segments

/-- The recovery of the bus (R2): nine clock pulses and a STOP. The spec leaves to the partner what stands on the data line in them; `left` gives
it, one level for each pulse and one for the STOP, which may still be low (log 33). -/
def recoveryCourse (left : List Bool) : List BusAct :=
  (List.range 9).map (fun n => .pulse (left.getD n true)) ++ [.stop (left.getD 9 true)]

/-- What follows a STRETCH failure when the clock line rises (R5): the wait with the clock driver released, and a STOP, with the level that the
partner leaves on the data line in each of the two (log 33). -/
def stretchCourse (left : List Bool) : List BusAct := [.wait (left.getD 0 true), .stop (left.getD 1 true)]

/-- The course that ends at the missing acknowledge of sent byte number `n`, counted from 0, with a STOP (R4, R15). -/
def endedEarly (n : Nat) : List BusAct → List BusAct
  | [] => []
  | .send b acknowledged :: rest =>
    match n with
    | 0 => [.send b false, .stop true]
    | n + 1 => .send b acknowledged :: endedEarly n rest
  | a :: rest => a :: endedEarly n rest

/-- What the partner of a transaction answers: the bytes read from a converter, or the segments of the configuration memory. -/
inductive BusAnswer where
  | converter (status high middle low : Byte)
  | memory (segments : List (List Byte))
  deriving DecidableEq, Repr

/-- The course of the transaction in flight from its present stage on, with what its partner answers: the served channel's own address and
result register (R3), the configuration read (R15), the bus recovery (R2) or the wait for a STOP (R5), in both of them with the levels that the
partner leaves on the data line (log 33). Without a transaction there is none, and both drivers are released (R1). -/
def Engine.course (answer : BusAnswer) (left : List Bool) (e : Engine) : List BusAct :=
  match e.transaction with
  | none => []
  | some ⟨_, .recovering _⟩ => recoveryCourse left
  | some ⟨_, .stretched _⟩ => stretchCourse left
  | some ⟨.channel c, .underWay _⟩ =>
    match answer with
    | .converter status high middle low =>
      converterCourse (e.channels.get c).address (e.channels.get c).register status high middle low
    | .memory _ => []
  | some ⟨.configRead, .underWay _⟩ =>
    match answer with
    | .memory segments => configCourse segments
    | .converter _ _ _ _ => []

/-- The clock periods of an act (R1, R3): nine for a byte with its acknowledge bit. -/
def BusAct.periods : BusAct → Nat
  | .send _ _ => 9
  | .receive _ => 8
  | .acknowledge _ => 1
  | .pulse _ => 1
  | .pause => 0
  | .wait _ => 0
  | .start => 0
  | .repeatedStart => 0
  | .stop _ => 0

/-- The clock period in nanoseconds (R1): 100 kHz for the configuration read and before the load, then as configured. -/
def Engine.periodNs (e : Engine) : Nat := if e.fastBus then 2500 else 10000

/-- Both sensor-bus drivers are released: after every reset and for as long as no transaction is in flight (R1). -/
def Engine.driversReleased (e : Engine) : Bool := e.transaction.isNone

end Sys2Proof.Machine
end

