-- ==== Sys2Proof/Machine/Lamps.lean ====
section
/-! DEFINITION. The lamps as computed views of the state (04, R68 to R71). -/

namespace Sys2Proof.Machine

/-- The lane's own group (R69): the group whose mask is the lane's configured mask and whose key is its article under that mask. -/
def State.ownGroup (s : State) (l : LaneNo) : Option GroupNo :=
  s.findGroup ((s.laneSettings l).article &&& (s.laneSettings l).mask) (s.laneSettings l).mask

/-- The group pattern of a lane (R69). -/
def State.groupPattern (s : State) (l : LaneNo) : Pattern :=
  match (s.ownGroup l).bind s.group with
  | some gr => gr.alert.pattern
  | none => .dark

/-- The pattern of a lane's lamp by precedence (R70). -/
def State.lanePattern (s : State) (l : LaneNo) : Pattern :=
  let sv := (s.lane l).service
  if sv.state = .off then .dark
  else if sv.state = .fault then .faultBeat
  else if sv.flash then .refuse
  else if sv.state = .held ∨ sv.state = .resuming then .holdBeat
  else s.groupPattern l

/-- The pattern of a lane's lamp in every phase (R71). -/
def State.lampPattern (s : State) (l : LaneNo) : Pattern :=
  match s.station.phase with
  | .configFault => .faultBeat
  | .reset => .dark
  | .warmUp => .dark
  | .loading => .dark
  | .joining => s.lanePattern l
  | .running => s.lanePattern l

/-- The origin of the phase of a lane's pattern (R68). -/
def State.lampOrigin (s : State) (l : LaneNo) : Time :=
  let sv := (s.lane l).service
  match s.lampPattern l with
  | .faultBeat => sv.faultBeatOrigin
  | .holdBeat => sv.holdBeatOrigin
  | .refuse => sv.refuseOrigin
  | .fast => match (s.ownGroup l).bind s.group with
    | some gr => gr.alert.origin
    | none => s.now
  | .slow => match (s.ownGroup l).bind s.group with
    | some gr => gr.alert.origin
    | none => s.now
  | .dark => s.now
  | .steady => s.now

/-- The time from an origin to a moment in microseconds. -/
def sinceUs (origin now : Time) : Int := origin.msFrom now * 1000 + (now.us.val : Int) - (origin.us.val : Int)

/-- A blinking pattern is lit for `litMs` at the start of each period (R68). -/
def blinkLit (litMs periodMs : Nat) (sinceOrigin : Int) : Bool :=
  decide (sinceOrigin % ((periodMs : Int) * 1000) < (litMs : Int) * 1000)

/-- A pattern is lit at this time from its origin (R68). -/
def Pattern.lit (p : Pattern) (sinceOrigin : Int) : Bool :=
  match p with
  | .dark => false
  | .steady => true
  | .fast => blinkLit 250 500 sinceOrigin
  | .slow => blinkLit 1000 2000 sinceOrigin
  | .faultBeat => blinkLit 100 500 sinceOrigin
  | .holdBeat => blinkLit 100 2000 sinceOrigin
  | .refuse => blinkLit 250 500 sinceOrigin

/-- The lamp output pin of a lane: high when lit (11.7). -/
def State.lampLit (s : State) (l : LaneNo) : Bool := (s.lampPattern l).lit (sinceUs (s.lampOrigin l) s.now)

end Sys2Proof.Machine
end

