-- ==== Sys2Proof/Safety.lean ====
section
/-! DEFINITION. What every run keeps: the invariants that the rules give, and which commands are on time (log 4). -/

namespace Sys2Proof.Machine

/-! ## Commands on time (log 4) -/

/-- The time a command brings with it. -/
def elapsedOf (i : Instr) : Nat :=
  match i with
  | .powerOnReset => 0
  | .resetInput => 0
  | .resetEnd _ => 0
  | .warmUpEnd e _ => e
  | .configSegmentEnd e _ _ => e
  | .configAcknowledgeMissing e _ => e
  | .roundTick e _ => e
  | .converterTransactionComplete e _ _ => e
  | .stretchTimeout e _ => e
  | .stretchStop e _ => e
  | .busHeld e _ => e
  | .supplyMonitorLow e => e
  | .supplyMonitorHigh e => e
  | .brownOutEnd e _ => e
  | .lineIdle e => e
  | .lineBusy e => e
  | .framingFault e => e
  | .lineBreak e => e
  | .frameGapTimeout gap => gap.elapsed
  | .bodyLengthTooLong e _ _ _ => e
  | .frameRejected e _ => e
  | .stockReceived e _ => e
  | .surveyReceived e _ => e
  | .disturbReceived e _ => e
  | .raiseReceived e _ => e
  | .clearReceived e _ => e
  | .take e _ => e
  | .takeRelease e _ => e
  | .query e _ => e
  | .restart e _ => e
  | .statusFrameReceived e _ => e
  | .attemptBegin e => e
  | .frameSent e => e
  | .collision e => e
  | .jamEnd e => e
  | .notBeforePassed e => e
  | .stuckMeasurementExpiry e => e
  | .listenOnlySecondTimer e => e
  | .disturbExpiry e => e
  | .buttonInputChange e _ _ => e
  | .press e _ => e
  | .release e _ => e
  | .longPress e _ => e
  | .refusalFlashEnd e _ => e
  | .patternOriginAdvance e _ => e
  | .holdTimerExpiry e _ => e
  | .reportTimerExpiry e => e
  | .surveyDelayEnd e _ => e
  | .holdoffExpiry e => e
  | .sendInhibitExpiry e => e
  | .entryAged e _ _ => e
  | .entryForgotten e _ _ => e
  | .rateTick e => e
  | .deferenceExpiry e _ => e
  | .repeatExpiry e _ => e
  | .watchExpiry e _ => e
  | .takenExpiry e _ => e
  | .joinSurveyOffer e => e
  | .joiningEnd e => e
  | .busRecoveryComplete e _ => e
  | .readyCharacterReceived e _ => e

/-- The ends of a lane's running timers (R58, R62, R63, R66, R116). -/
def Service.timerEnds (sv : Service) : List Time :=
  sv.debounce.toList ++ sv.press.mark.toList ++ sv.holdTimer.toList
    ++ (if sv.flash then [sv.refuseOrigin.addMs 1500] else []) ++ sv.surveyDelay.toList

/-- The ends of an alert record's running timers (R148, R153, R156, R160). -/
def Alert.timerEnds (a : Alert) : List Time :=
  a.deference.toList ++ a.repeatTimer.toList ++ a.watch.toList ++ a.takenUntil.toList

/-- The moments at which a WAITING entry becomes eligible or expires (R106, R111). -/
def Entry.timerEnds (e : Entry) : List Time :=
  if e.waiting then
    (if e.passed then [] else [e.notBefore])
      ++ match e.body with
        | .disturb _ hold => [e.enqueued.addMs (hold * 100 + 1)]
        | .stock _ _ _ _ _ _ => []
        | .survey _ => []
        | .raise _ _ _ _ _ _ _ => []
        | .clear _ _ _ => []
        | .status => []
  else []

/-- The origins of the lamp patterns, of every lane and every group (R68). -/
def State.origins (s : State) : List Time :=
  allLanes.flatMap (fun l =>
    [(s.lane l).service.refuseOrigin, (s.lane l).service.holdBeatOrigin, (s.lane l).service.faultBeatOrigin])
    ++ allGroups.flatMap fun g => match s.group g with
      | some gr => [gr.alert.origin]
      | none => []

/-- The moments at which an origin lies 2,000 ms in the past and is moved forward (R68), outside RESET, in which the clock stands (R169). -/
def State.originMoments (s : State) : List Time :=
  if s.station.phase = .reset then [] else s.origins.map fun origin => origin.addMs 2000

/-- The moments of an entry of the Peer Stock Table at which it ages or is forgotten (R123, R124). -/
def State.peerEnds (s : State) (e : PeerEntry) : List Time :=
  (match e.age with
    | .fresh => if s.staleMs < s.forgetMs then [e.arrival.addMs (s.staleMs + 1)] else []
    | .stale => []) ++ [e.arrival.addMs (s.forgetMs + 1)]

/-- The moments of the join timer (R175). -/
def JoinTimer.ends (j : JoinTimer) : List Time :=
  j.entered.addMs 30000 ::
    match j.survey with
    | .notOffered => [j.entered.addMs 3000]
    | .offered => []
    | .settled moment => [moment.addMs 4000]

/-- The moment at which a transaction that waits after a STRETCH failure has its STOP, or the bus is held (R5). -/
def Engine.stretchEnds (e : Engine) : List Time :=
  match e.transaction with
  | some ⟨_, .stretched failedAt⟩ => [failedAt.addMs heldMs]
  | some ⟨_, .recovering _⟩ => []
  | some ⟨_, .underWay _⟩ => []
  | none => []

/-- The moment at which a busy line becomes idle (R82), outside RESET, own attempts and frames in reception, 24 bit times after the end of its
last LOW bit time (log 29): by then it is idle, or it has been LOW again. -/
def State.idleEnds (s : State) : List Time :=
  match s.line.use with
  | .idle _ => []
  | .busyOwn => waiting
  | .busyOther => waiting
where
  waiting : List Time :=
    if decide (s.station.phase ≠ .reset) && s.line.attempt.isNone && !s.line.receiver.receiving then
      [s.line.idleFrom]
    else []

/-- The first moment at which an attempt may begin as things stand, outside RESET (R91): when the gap before the best eligible entry's frame
is complete, or now where it is already. -/
def State.attemptMoments (s : State) : List Time :=
  match bestEligible s.queue, s.line.use with
  | some e, .idle since =>
    if decide (s.station.phase ≠ .reset) && awaitsGap e s then [later s.now (gapEnd e.body.priority since)] else []
  | some _, .busyOwn => []
  | some _, .busyOther => []
  | none, _ => []
where
  later (a b : Time) : Time := if b.notAfter a then a else b

/-- The end of every timer and of every measurement that runs, the moment at which an attempt begins, and the moments at which the lamp
origins are moved forward. -/
def State.timerEnds (s : State) : List Time :=
  s.station.warmUpTimer.toList
    ++ (match s.station.brownOut with
      | .none => []
      | .low => []
      | .high ends => [ends])
    ++ s.station.joinTimer.toList.flatMap JoinTimer.ends
    ++ s.engine.roundTimer.toList ++ s.engine.stretchEnds
    ++ allLanes.flatMap (fun l => (s.lane l).service.timerEnds)
    ++ s.shock.holdoff.toList ++ s.shock.sendInhibit.toList
    ++ s.line.attempt.toList.map Attempt.ends
    ++ s.line.stuckSince.toList.map (fun t => t.addMs 50)
    ++ s.line.secondTimer.toList ++ s.idleEnds ++ s.attemptMoments
    ++ s.queue.flatMap Entry.timerEnds
    ++ s.peers.flatMap s.peerEnds
    ++ allGroups.flatMap (fun g => match s.group g with
      | some gr => gr.alert.timerEnds
      | none => [])
    ++ s.reportTimer.toList ++ s.rateTick.toList ++ s.originMoments

/-- A command is on time: no running timer's end, no moment at which an attempt begins and none at which a lamp origin is moved forward lies
before the moment of its event, so none is passed over (log 4). -/
def Punctual (i : Instr) (s : State) : Prop :=
  ∀ ends ∈ s.timerEnds, (s.now.addUs (elapsedOf i)).notAfter ends = true

/-- The earliest moment `periods` clock periods after another (R1). -/
def Engine.after (e : Engine) (periods : Nat) (since : Time) : Time := since.addUs (periods * e.periodNs / 1000)

/-- The earliest moment at which the transaction in flight can end, or its segment, with what the command brings: nine periods for a byte
with its acknowledge bit (R1 to R5, R15, R16). -/
def Engine.earliest (e : Engine) (periods : Nat) : List Time :=
  match e.transaction with
  | some ⟨_, .underWay since⟩ => [e.after periods since]
  | some ⟨_, .recovering since⟩ => [e.after periods since]
  | some ⟨_, .stretched _⟩ => []
  | none => []

/-- The earliest end of the frame in reception whose characters after the mark are `n` (R82, R84). -/
def LineController.earliest (lc : LineController) (n : Nat) : List Time :=
  match lc.receiver with
  | .inFrame _ stopEnd => [stopEnd.addUs (characterUs * n)]
  | .waitIdle => []
  | .ready => []
  | .readback => []

/-- The moments before which the events of some commands cannot come, as the wires go (log 21): the clock periods of a transaction, and
the characters of a frame. -/
def State.earliest (i : Instr) (s : State) : List Time :=
  match i with
  | .converterTransactionComplete _ (.bytesRead _ _ _ _) _ => s.engine.earliest 63
  | .converterTransactionComplete _ .notAcknowledged _ => s.engine.earliest 9
  | .configSegmentEnd _ _ _ => s.engine.earliest (if s.station.block.isEmpty then 36 + 287 else 288)
  | .configAcknowledgeMissing _ _ => s.engine.earliest 9
  | .busRecoveryComplete _ _ => s.engine.earliest 9
  | .frameRejected _ chars => s.line.earliest chars.length
  | .stockReceived _ chars => s.line.earliest chars.length
  | .surveyReceived _ chars => s.line.earliest chars.length
  | .disturbReceived _ chars => s.line.earliest chars.length
  | .raiseReceived _ chars => s.line.earliest chars.length
  | .clearReceived _ chars => s.line.earliest chars.length
  | .take _ chars => s.line.earliest chars.length
  | .takeRelease _ chars => s.line.earliest chars.length
  | .query _ chars => s.line.earliest chars.length
  | .restart _ frame => s.line.earliest frame.chars.length
  | .statusFrameReceived _ chars => s.line.earliest chars.length
  | _ => []

/-- A command is not early: its event comes no sooner than the wires can bring it. -/
def NotEarly (i : Instr) (s : State) : Prop :=
  ∀ moment ∈ s.earliest i, moment.notAfter (s.now.addUs (elapsedOf i)) = true

/-! ## What every step keeps -/

/-- No counter passes 65,535 (R179). -/
def CountersBounded (s : State) : Prop := ∀ n ∈ s.station.counters.values, n ≤ 65535

/-- TEC and REC stay within 0 to 255 (R97), and the line state and the second timer follow them (R98). -/
def LineCountsSound (s : State) : Prop :=
  s.line.tecCount ≤ 255 ∧ s.line.recCount ≤ 255
    ∧ (s.line.state = .active → s.line.tecCount < 128 ∧ s.line.recCount < 128)
    ∧ (s.line.secondTimer.isSome = true ↔ s.line.state = .listenOnly)

/-- The queue holds at most 8 entries, no two WAITING entries of one identity (R107), and an ON LINE entry exactly while an attempt is in
progress (7.1). -/
def QueueSound (s : State) : Prop :=
  s.queue.length ≤ 8
    ∧ ((s.queue.filter Entry.waiting).map fun e => e.body.identity).Nodup
    ∧ (s.queue.filter fun e => !e.waiting).length = (if s.line.attempt.isSome then 1 else 0)

/-- The Peer Stock Table holds at most 48 entries (R117), in ascending key order with no key twice (8.1). -/
def PeersSound (s : State) : Prop := s.peers.length ≤ 48 ∧ (s.peers.map PeerEntry.keyOrder).Pairwise (· < ·)

/-- While a holdoff is active every lane is MOVING (R30, R79). -/
def HoldoffMoving (s : State) : Prop := s.shock.holdoff ≠ none → ∀ l, (s.lane l).weighing.motion = .moving

/-- A station without a configuration: every lane OFF with its reset count record and no hold timer, and no groups (R35, R54, R131,
R176). -/
def Unloaded (s : State) : Prop :=
  ∀ l, (s.lane l).service.state = .off ∧ (s.lane l).service.holdTimer = none ∧ (s.lane l).counter = Counter.reset
    ∧ s.group l = none

/-- A configuration is there exactly in JOINING and RUNNING, and each timer of the start-up runs only in its phase (11.1, R170, R174 to
R176). -/
def StartUpSound (s : State) : Prop :=
  (s.station.config.isSome = true ↔ s.station.phase = .joining ∨ s.station.phase = .running)
    ∧ (s.station.config = none → Unloaded s)
    ∧ (∀ stage, s.engine.transaction = some ⟨.configRead, stage⟩ → s.station.phase = .loading)
    ∧ (s.station.warmUpTimer.isSome = true → s.station.phase = .warmUp)
    ∧ (s.station.joinTimer.isSome = true ↔ s.station.phase = .joining)
    ∧ (s.engine.roundTimer.isSome = true ↔ s.station.config.isSome = true)
    ∧ (s.reportTimer.isSome = true ↔ s.station.phase = .running)
    ∧ (s.rateTick.isSome = true ↔ s.station.phase = .running)

/-- A lane's hold timer runs exactly while it is HELD (R58), and its runtime tare offset stays within the zero limit (R43, R50). -/
def LaneRecordsSound (s : State) : Prop :=
  ∀ l, ((s.lane l).service.holdTimer.isSome = true ↔ (s.lane l).service.state = .held)
    ∧ (s.lane l).counter.offset.natAbs ≤ (s.laneSettings l).zeroLimit

/-- An alert record's timers, raiser and raise-sent mark stand with their states alone (10.1, R148, R153, R156, R160). -/
def Alert.Sound (a : Alert) : Prop :=
  (a.deference.isSome = true ↔ a.state = .pending) ∧ (a.repeatTimer.isSome = true ↔ a.state = .raised)
    ∧ (a.watch.isSome = true ↔ a.state = .following) ∧ (a.takenUntil.isSome = true ↔ a.state = .taken)
    ∧ (a.raiser.isSome = true → a.state = .following) ∧ (a.raiseSent = true → a.state = .raised)

/-- Every alert record is sound. -/
def AlertsSound (s : State) : Prop := ∀ g gr, s.group g = some gr → gr.alert.Sound

/-- A RAISE of a group that is not marked for withdrawal is in the queue only while the group is RAISED (R109, R110, R150 to R165). -/
def RaisesSound (s : State) : Prop :=
  ∀ e ∈ s.queue, ∀ g, e.body.isRaiseOf g = true → e.withdraw = false →
    ∃ gr, s.group g = some gr ∧ gr.alert.state = .raised

end Sys2Proof.Machine
end

