-- ==== Sys2Proof/WellFormed.lean ====
section
/-! DEFINITION. Which operands an event of each row can have. A command with others is no event of the part, and its meaning ends in
the fault malformedCommand (log 12). -/

namespace Sys2Proof

open Machine

/-- The command's operands are ones an event of its row can have. -/
def Instr.wf (i : Instr) : Bool :=
  match i with
  | .powerOnReset => true
  | .resetInput => true
  | .resetEnd _ => true
  | .warmUpEnd _ _ => true
  | .configSegmentEnd _ bytes _ => segmentOk bytes
  | .configAcknowledgeMissing _ _ => true
  | .roundTick _ _ => true
  | .converterTransactionComplete _ _ _ => true
  | .stretchTimeout _ hold => receivedOk hold.received
  | .stretchStop _ _ => true
  | .busHeld _ _ => true
  | .supplyMonitorLow _ => true
  | .supplyMonitorHigh _ => true
  | .brownOutEnd _ _ => true
  | .lineIdle _ => true
  | .lineBusy _ => true
  | .framingFault _ => true
  | .lineBreak _ => true
  | .frameGapTimeout gap => gapOk gap.chars gap.gap
  | .bodyLengthTooLong _ _ _ length => tooLongOk length
  | .frameRejected _ chars => rejectedOk chars
  | .stockReceived _ chars => goodOk RxBody.isStock chars
  | .surveyReceived _ chars => goodOk RxBody.isSurvey chars
  | .disturbReceived _ chars => goodOk RxBody.isDisturb chars
  | .raiseReceived _ chars => goodOk RxBody.isRaise chars
  | .clearReceived _ chars => goodOk RxBody.isClear chars
  | .take _ chars => goodOk RxBody.isTake chars
  | .takeRelease _ chars => goodOk RxBody.isRelease chars
  | .query _ chars => goodOk RxBody.isQuery chars
  | .restart _ frame => goodOk RxBody.isRestart frame.chars
  | .statusFrameReceived _ chars => goodOk RxBody.isStatus chars
  | .attemptBegin _ => true
  | .frameSent _ => true
  | .collision _ => true
  | .jamEnd _ => true
  | .notBeforePassed _ => true
  | .stuckMeasurementExpiry _ => true
  | .listenOnlySecondTimer _ => true
  | .disturbExpiry _ => true
  | .buttonInputChange _ _ _ => true
  | .press _ _ => true
  | .release _ _ => true
  | .longPress _ _ => true
  | .refusalFlashEnd _ _ => true
  | .patternOriginAdvance _ _ => true
  | .holdTimerExpiry _ _ => true
  | .reportTimerExpiry _ => true
  | .surveyDelayEnd _ _ => true
  | .holdoffExpiry _ => true
  | .sendInhibitExpiry _ => true
  | .entryAged _ _ _ => true
  | .entryForgotten _ _ _ => true
  | .rateTick _ => true
  | .deferenceExpiry _ _ => true
  | .repeatExpiry _ _ => true
  | .watchExpiry _ _ => true
  | .takenExpiry _ _ => true
  | .joinSurveyOffer _ => true
  | .joiningEnd _ => true
  | .busRecoveryComplete _ _ => true
  | .readyCharacterReceived _ _ => true

end Sys2Proof
end

