-- ==== Sys2Proof/Certificates/Slice0/Obligations.lean ====
section
/-! DEFINITION. The statements for the provers. -/

namespace Sys2Proof.Machine

/-! ## Words the statements use -/

/-- The station is out of RESET. -/
def Awake (s : State) : Prop := s.station.phase ≠ .reset

/-- The moment of an event that comes `elapsed` microseconds after the state. -/
def at' (elapsed : Nat) (s : State) : Time := s.now.addUs elapsed

/-- A queue without the busy-seen marks, which any passing of time may set (R92). -/
def unmarked (q : List Entry) : List Entry := q.map fun e => { e with busySeen := false }

/-- The Line Controller without its stuck measurement, which starts and stops with the queue (R99). -/
def unmeasured (lc : LineController) : LineController := { lc with stuckSince := none }

/-- The stage a transaction begins in at a bus check made at the moment given (R2). -/
def checkedStage (now : Time) (dataHigh : Bool) : BusStage := if dataHigh then .underWay now else .recovering now

/-- The 24 bit times of HIGH after which the line is idle have passed since it was seen LOW last (R82). -/
def IdleComes (lowEnd now : Time) : Prop := (lowEnd.addUs 192).notAfter now = true

/-- A number used by the load in place of the stored one (R172): the same where it is legal, and otherwise the nearest legal one. -/
def NearestIn (low high stored used : Nat) : Prop :=
  low ≤ used ∧ used ≤ high ∧ (low ≤ stored → stored ≤ high → used = stored)
    ∧ (stored < low → used = low) ∧ (high < stored → used = high)

/-- A division rounded to the nearest integer, halves away from zero (00, "Rounding"): `w` is `exact` divided by `divisor`. -/
def RoundsTo (exact divisor w : Int) : Prop :=
  2 * |divisor * w - exact| ≤ divisor ∧ (2 * |divisor * w - exact| = divisor → |exact| < divisor * |w|)

/-- A stored number lies outside its legal values (R172). -/
def Illegal (low high stored : Nat) : Prop := stored < low ∨ high < stored

/-- A channel number lies in the run of an enabled lane as the block stores it (11.2, R173). -/
def InRun (block : List Byte) (m : LaneNo) (c : Nat) : Prop :=
  (readLane block m).enable = true ∧ (readLane block m).firstChannel ≤ c
    ∧ c < (readLane block m).firstChannel + (readLane block m).channelCount

/-- The lane weighs with the channel: it lies in the lane's run and in the run of no enabled lane of lower number, and it has an address
(R173). -/
def WeighsWith (block : List Byte) (l : LaneNo) (c : ChannelNo) : Prop :=
  InRun block l c ∧ loadedAddress block c ≠ 0 ∧ ∀ m, m < l → ¬ InRun block m c

/-- The load adjusts the block (R172, R173): a field is clamped, or an enabled lane drops a channel of its run, because it lies beyond
channel 7 or belongs to an enabled lane of lower number, or is left without any channel. -/
def Adjusted (block : List Byte) : Prop :=
  let st := readStation block
  (Illegal 0 3 st.sampleRateCode ∨ Illegal 0 1 st.speedCode ∨ st.filterDepth ∉ [1, 2, 4, 8, 16] ∨ Illegal 2 32 st.settleWindow
      ∨ Illegal 10 255 st.reportIntervalS ∨ Illegal 1 60 st.forgetTimeMin ∨ Illegal 3 60 st.repeatUnits
      ∨ Illegal 1 20 st.deferenceUnits ∨ Illegal 1 100 st.holdTime ∨ Illegal 1 120 st.holdLimitMin)
    ∨ (∃ c, Illegal 0 127 (readChannel block c).address ∨ Illegal 1 65535 (readChannel block c).gain)
    ∨ (∃ l, Illegal 1 255 (readLane block l).pack ∨ Illegal 1 65535 (readLane block l).unitWeight
      ∨ Illegal 1 65535 (readLane block l).band ∨ Illegal 0 8388607 (readLane block l).tare
      ∨ Illegal 0 240 (readLane block l).leadTimeMin)
    ∨ ∃ l, (readLane block l).enable = true
      ∧ ((∃ c, InRun block l c ∧ (7 < c ∨ ∃ m, m < l ∧ InRun block m c)) ∨ ∀ c, ¬ WeighsWith block l c)

/-- A WAITING DISTURB has outlived its hold (R111): the enqueue time plus the hold in units of 100 ms plus 1 ms has come (log 13). -/
def Outlived (now : Time) (x : Entry) : Prop :=
  ∃ zone hold, x.body = .disturb zone hold ∧ (x.enqueued.addMs (hold * 100 + 1)).notAfter now = true

/-- The queue has a place for an offer of class 0 with this identity (R107, R108). -/
def HasPlace (i : Identity) (q : List Entry) : Prop :=
  q.length < 8 ∨ (∃ x ∈ q, x.waiting = true ∧ x.body.identity = i) ∨ ∃ x ∈ q, x.waiting = true ∧ 0 < x.body.priority

/-- A WAITING RAISE of the group stands in the queue with the group's figures as they are in the record (R152). -/
def RaiseWaits (g : GroupNo) (r : GroupRecord) (level : Option Shortage) (q : List Entry) : Prop :=
  ∃ x ∈ q, x.waiting = true ∧ x.body = .raise g r.key r.mask level r.quality r.aggregate r.reorderPoint

/-- No RAISE of the group waits in the queue, and one that is ON LINE is marked (R109). -/
def RaiseWithdrawn (g : GroupNo) (q : List Entry) : Prop :=
  ∀ x ∈ q, x.body.isRaiseOf g = true → x.waiting = false ∧ x.withdraw = true

/-- The lane's report is due, or it waits in the queue (R67, R113). -/
def Reported (s t : State) (l : LaneNo) : Prop :=
  (t.lane l).service.reportDue = true
    ∨ (s.lane l).service.state.offers = true ∧ t.queue.any (fun x => x.waitsFor (.stock l)) = true

/-- The SURVEY's outcome times the end of JOINING from now (R175). -/
def SurveySettles (elapsed : Nat) (s t : State) : Prop :=
  ∀ entered, s.station.joinTimer = some ⟨entered, .offered⟩ →
    t.station.joinTimer = some ⟨entered, .settled (at' elapsed s)⟩

/-- The ON LINE entry may wait again: it is not marked for withdrawal, no newer entry of its identity waits, and it is no DISTURB past its
hold (R110, R111). -/
def MayWait (now : Time) (x : Entry) (q : List Entry) : Prop :=
  x.withdraw = false ∧ q.any (fun o => o.waitsFor x.body.identity) = false ∧ ¬ Outlived now x

/-- The ON LINE entry comes off the line without having been sent (R110): it waits again, changed by `f`, in its place, or it leaves the
queue, in which every other entry stays. -/
def ComesBack (elapsed : Nat) (x : Entry) (f : Entry → Entry) (s t : State) : Prop :=
  (MayWait (at' elapsed s) x s.queue →
      unmarked t.queue = unmarked (updateOnLine (fun o => { f o with status := .waiting }) s.queue))
    ∧ (¬ MayWait (at' elapsed s) x s.queue → onLineEntry t.queue = none
      ∧ ∀ y ∈ s.queue, y.waiting = true → ∃ z ∈ t.queue, z.waiting = true ∧ z.body.identity = y.body.identity
        ∧ z.enqueued = y.enqueued ∧ z.attempts = y.attempts ∧ z.notBefore = y.notBefore)

/-- The line becomes LISTEN-ONLY (R98, R165): the second timer starts and the flag is latched; a RAISED record follows with no raiser and its
level, under a watch of 3R, its RAISE withdrawn; any other record stays. -/
def EntersListenOnly (elapsed : Nat) (s t : State) : Prop :=
  t.line.state = .listenOnly ∧ t.line.secondTimer = some ((at' elapsed s).addMs 1000)
    ∧ t.station.flags.listenOnlyEntered = true ∧ t.station.notes.flags.listenOnlyEntered = true
    ∧ ∀ g gr, s.group g = some gr →
      (gr.alert.state ≠ .raised → t.group g = some gr)
      ∧ (gr.alert.state = .raised → RaiseWithdrawn g t.queue
        ∧ ∃ after, t.group g = some after ∧ after.record = gr.record ∧ after.alert.state = .following
          ∧ after.alert.raiser = none ∧ after.alert.level = gr.alert.level ∧ after.alert.raiseSent = false
          ∧ after.alert.watch = some ((at' elapsed s).addMs (3 * (s.settings.repeatUnits * 10000)))
          ∧ after.alert.deference = none ∧ after.alert.repeatTimer = none)

/-- The counters without the two of the Transmit Queue. -/
def apartFromQueue (c : Counters) : Counters := { c with queueEvictions := 0, queueRefusals := 0 }

/-- The counters without the two that count the collisions of a sent frame (R93). -/
def apartFromCollisions (c : Counters) : Counters := { c with singleCollisions := 0, multipleCollisions := 0 }

/-- The row of a good frame with this body; a RESTART, whose reset may end in its event, brings the straps with it. -/
def rowOf (body : RxBody) (elapsed : Nat) (chars : List Byte) (straps : BitVec 6) : Instr :=
  match body with
  | .stock _ _ _ _ _ _ => .stockReceived elapsed chars
  | .survey _ => .surveyReceived elapsed chars
  | .disturb _ _ => .disturbReceived elapsed chars
  | .raise _ _ _ _ _ _ => .raiseReceived elapsed chars
  | .clear _ _ => .clearReceived elapsed chars
  | .take _ _ _ duration => if duration = 0 then .takeRelease elapsed chars else .take elapsed chars
  | .query _ => .query elapsed chars
  | .status => .statusFrameReceived elapsed chars
  | .restart _ => .restart elapsed ⟨chars, straps⟩

/-- A good frame from `sender` with `body` arrives at a station with a valid number that is receiving a frame, from a sender that R101 lets
through; the line's counts are sound (StepKeepsTheCountsSound). -/
def Arrives (sender : Nat) (body : RxBody) (chars : List Byte) (s : State) : Prop :=
  Awake s ∧ (∃ received stopEnd, s.line.receiver = .inFrame received stopEnd) ∧ judge chars = .good sender body
    ∧ validNumber s.station.number = true ∧ sender ≠ 0 ∧ sender ≠ s.number ∧ LineCountsSound s

/-- What a failed configuration attempt leaves (R17, R171): the next attempt with its bus check, or CONFIG FAULT with FAULT BEAT from now on
every lamp (R71, R176). -/
def AttemptFailed (elapsed : Nat) (dataHigh : Bool) (s t : State) : Prop :=
  t.engine.failedAttempts = s.engine.failedAttempts + 1
    ∧ t.engine.channels = s.engine.channels ∧ unmarked t.queue = unmarked s.queue ∧ t.peers = s.peers ∧ t.groups = s.groups
    ∧ (if s.engine.failedAttempts + 1 < 3 then
        t.station.phase = s.station.phase ∧ t.station.block = [] ∧ t.lanes = s.lanes
          ∧ t.engine.transaction = some ⟨.configRead, checkedStage (at' elapsed s) dataHigh⟩
      else
        t.station.phase = .configFault ∧ t.engine.transaction = none
          ∧ ∀ l, t.lane l
            = { s.lane l with service := { (s.lane l).service with faultBeatOrigin := at' elapsed s } })

/-- Key and mask both equal those of an own group (R102, R103). -/
def OwnGroup (key mask : Word) (s : State) : Prop := ∃ g gr, s.group g = some gr ∧ gr.record.key = key ∧ gr.record.mask = mask

/-- The condition on which a frame of a station kind is kept (R102). -/
def StationKept (sender : Nat) (body : RxBody) (s : State) : Prop :=
  1 ≤ sender ∧ sender ≤ 60 ∧
    match body with
    | .stock lane article _ _ stateCode confidenceCode =>
      lane ≤ 3 ∧ 2 ≤ stateCode ∧ stateCode ≤ 5 ∧ confidenceCode ≤ 2
        ∧ ∃ g gr, s.group g = some gr ∧ article &&& gr.record.mask = gr.record.key
    | .survey pairs => ∃ l, (s.lane l).service.state ≠ .off ∧ ∃ p ∈ pairs, (s.laneSettings l).article &&& p.2 = p.1
    | .disturb zone _ =>
      s.shock.configured = true ∧ (zone = s.shock.ownZone ∨ zone ≠ 0 ∧ ∃ i, zone = s.shock.neighbours.get i)
    | .raise key mask levelCode qualityCode _ _ =>
      OwnGroup key mask s ∧ 1 ≤ levelCode ∧ levelCode ≤ 2 ∧ qualityCode ≤ 2
    | .clear key mask => OwnGroup key mask s
    | .status => False
    | .take _ _ _ _ => False
    | .query _ => False
    | .restart _ => False

/-- The frame is of a gateway kind (R103). -/
def GatewayKind (body : RxBody) : Prop :=
  match body with
  | .take _ _ _ _ => True
  | .query _ => True
  | .restart _ => True
  | .stock _ _ _ _ _ _ => False
  | .survey _ => False
  | .disturb _ _ => False
  | .raise _ _ _ _ _ _ => False
  | .clear _ _ => False
  | .status => False

/-- A frame of a gateway kind from a gateway is kept (R103). -/
def GatewayKept (body : RxBody) (s : State) : Prop :=
  match body with
  | .take key mask _ _ => OwnGroup key mask s
  | .query target => target = s.number
  | .restart target => target = s.number
  | .stock _ _ _ _ _ _ => False
  | .survey _ => False
  | .disturb _ _ => False
  | .raise _ _ _ _ _ _ => False
  | .clear _ _ => False
  | .status => False

/-- What a received frame carries that was formed from a body (6.4): the body's own kind and fields, each in the width of its field. -/
def Body.carried : Body → RxBody
  | .stock lane article pack count state confidence =>
    .stock lane.val article (pack % 256) (count % 65536) state.code confidence.code
  | .survey pairs => .survey pairs
  | .disturb zone hold => .disturb zone (hold % 256)
  | .raise _ key mask level quality aggregate reorder =>
    .raise key mask (match level with | some l => l.code | none => 0) quality.code (aggregate % 16777216) (reorder % 65536)
  | .clear _ key mask => .clear key mask
  | .status => .status

/-- The channel record after its transaction (R4, R6, R9). -/
def Channel.ended (result : ConverterEnd) (c : Channel) : Channel :=
  match result with
  | .bytesRead status high middle low =>
    if status.getLsbD 7 then c.good ⟨signed24 high middle low, status.getLsbD 6⟩ else c.fail
  | .notAcknowledged => c.fail

/-- The seed of the pseudo-random source after a transaction's end: the first good sample since the reset seeds it again (R12, R169). -/
def StationControl.seedAfter (result : ConverterEnd) (st : StationControl) : RandomSeed :=
  match result with
  | .bytesRead status high middle low =>
    if status.getLsbD 7 = true ∧ st.seed.sample = none then ⟨st.number, some (signed24 high middle low)⟩ else st.seed
  | .notAcknowledged => st.seed

/-- The transaction's end is a failure: NOT ACKNOWLEDGED, or NOT READY (R4, R6). -/
def EndsInFailure (result : ConverterEnd) : Prop :=
  result = .notAcknowledged ∨ ∃ status high middle low, result = .bytesRead status high middle low ∧ status.getLsbD 7 = false

/-- One of the lane's channels has become FAULTED (R10), in a lane that enters FAULT at it (R56). -/
abbrev Lane.faultsBy (before channels : Eight Channel) (lane : Lane) : Prop :=
  lane.service.state ≠ .off ∧ lane.service.state ≠ .fault
    ∧ ∃ c ∈ lane.weighing.channels, (before.get c).state ≠ .faulted ∧ (channels.get c).state = .faulted

/-- A lane as the delivery of a round finds it, with the channel records as they were and as they are: it has entered FAULT at the report of
a channel (R10, R56), or in FAULT with all its channels OK it has left it for RESUMING (R57). -/
def Lane.beforeDelivery (now : Time) (before channels : Eight Channel) (lane : Lane) : Lane :=
  if lane.faultsBy before channels then lane.enterFault now
  else if lane.service.state = .fault ∧ ∀ c ∈ lane.weighing.channels, (channels.get c).state = .ok then lane.enterResuming now
  else lane

/-- Lane `l` as the delivery of a round with these records finds it. -/
def State.found (channels : Eight Channel) (now : Time) (s : State) (l : LaneNo) : Lane :=
  (s.lane l).beforeDelivery now s.engine.channels channels

/-- The weighing record with a gross sample in its filter, which is then the previous gross (R22 to R24). -/
def Weighing.sampled (depth : Nat) (g : Weight) (w : Weighing) : Weighing :=
  { w with previousGross := some g.grams, filter := pushFilter depth g w.filter }

/-- The weighing record after a gross sample that is no shock, with the settlement it makes, if any (R22, R24, R26 to R28, R30). -/
def Weighing.settles (settings : StationSettings) (band : Nat) (holdoff : Option Time) (g : Weight) (w : Weighing) :
    Weighing × Option Weight :=
  let sampled := w.sampled settings.filterDepth g
  match filteredValue settings.filterDepth sampled.filter, holdoff with
  | some f, none =>
    let tested := settlingTest settings.settleWindow band f sampled
    (tested.1, if tested.2 then some f else none)
  | some _, some _ => (sampled, none)
  | none, _ => (sampled, none)

/-- The settlement that a round gives a lane and that its Lane Counter takes up (R36), if no gross sample is a shock. -/
def State.taken (channels : Eight Channel) (now : Time) (s : State) (l : LaneNo) : Option Settlement :=
  let lane := s.found channels now l
  match grossSample channels lane with
  | none => none
  | some g =>
    match (lane.weighing.settles s.settings (s.laneSettings l).band s.shock.holdoff g).2 with
    | none => none
    | some f => if lane.service.state.takesUp then some (settlement (s.laneSettings l) lane.counter f.grams f.isOver) else none

/-- The sum of a number over the settlements that a round gives the lanes. -/
def sumTaken (f : Settlement → Nat) (channels : Eight Channel) (now : Time) (s : State) : Nat :=
  (allLanes.map fun l => match s.taken channels now l with | some r => f r | none => 0).sum

/-- The gross sample that a round gives a lane is a shock (R23). -/
def State.shockIn (channels : Eight Channel) (now : Time) (s : State) (l : LaneNo) (g : Weight) : Prop :=
  grossSample channels (s.found channels now l) = some g
    ∧ isShock (s.laneSettings l).shockKg (s.found channels now l).weighing.previousGross g.grams = true

/-- What the delivery of a round with these channel records leaves in a round without a shock: each lane that forms a gross sample takes it
into its filter, the filtered value goes to the settling test unless a holdoff applies, and a settlement is taken up or ignored by the
lane's state, with its amounts counted (R22 to R28, R30, R36, R47, R48). -/
def QuietRound (channels : Eight Channel) (now : Time) (s t : State) : Prop :=
  (∀ l,
    let lane := s.found channels now l
    (t.lane l).weighing
        = (match grossSample channels lane with
          | some g => (lane.weighing.settles s.settings (s.laneSettings l).band s.shock.holdoff g).1
          | none => lane.weighing)
      ∧ (t.lane l).counter
        = (match s.taken channels now l with
          | some r => r.counter
          | none => lane.counter)
      ∧ (t.lane l).service.state
        = (match s.taken channels now l with
          | some _ => .inService
          | none => lane.service.state))
  ∧ (CountersBounded s →
    t.station.counters.unitsPicked
        = min (s.station.counters.unitsPicked + sumTaken (fun r => (-r.amount).toNat) channels now s) 65535
      ∧ t.station.counters.unitsPut
        = min (s.station.counters.unitsPut + sumTaken (fun r => r.amount.toNat) channels now s) 65535
      ∧ t.station.counters.doubtfulSettlements
        = min (s.station.counters.doubtfulSettlements
          + sumTaken (fun r => if r.counter.confidence = .doubtful then 1 else 0) channels now s) 65535)
  ∧ t.shock = s.shock

/-- What a shock of lane `l` in a round leaves (R23, R30, R73 to R76): the sample in the filter, every lane MOVING, the holdoff begun or
extended to its candidate end; with the send inhibit passed, the inhibit set and a DISTURB waiting, and otherwise both as they were. -/
def ShockedRound (channels : Eight Channel) (now : Time) (l : LaneNo) (g : Weight) (s t : State) : Prop :=
  let candidate := now.addMs (s.shock.holdTime * 100)
  (t.lane l).weighing = { (s.found channels now l).weighing.sampled s.settings.filterDepth g with motion := .moving, window := [] }
    ∧ (t.lane l).counter = (s.lane l).counter
    ∧ (∀ m, (t.lane m).weighing.motion = .moving)
    ∧ t.shock.holdoff = some (match s.shock.holdoff with
      | none => candidate
      | some ends => if ends.before candidate then candidate else ends)
    ∧ (s.shock.sendInhibit = none ∨ due s.shock.sendInhibit now = true →
      t.shock.sendInhibit = some (now.addMs (s.shock.holdTime * 50))
        ∧ (QueueSound s → ∃ x ∈ t.queue, x.waiting = true ∧ x.body = .disturb s.shock.ownZone s.shock.holdTime))
    ∧ (due s.shock.sendInhibit now = false → s.shock.sendInhibit ≠ none → t.shock.sendInhibit = s.shock.sendInhibit
      ∧ ∀ x ∈ t.queue, x.body.identity = .disturb → ∃ y ∈ s.queue, y.body = x.body ∧ y.enqueued = x.enqueued)

/-- A lane state enters or leaves IN SERVICE, or a confidence enters or leaves UNKNOWN (R136). -/
def Moves (stateBefore stateAfter : LaneState) (confidenceBefore confidenceAfter : Confidence) : Prop :=
  ¬(stateBefore = .inService ↔ stateAfter = .inService) ∨ ¬(confidenceBefore = .unknown ↔ confidenceAfter = .unknown)

/-- `after` is what an evaluation of group `g` makes of `before`, with the lanes of the group as the command leaves them in `t` and the table
`peers` (R142; GroupFigures says what an evaluation makes). -/
def Evaluates (elapsed : Nat) (s t : State) (peers : List PeerEntry) (g : GroupNo) (before after : Group) : Prop :=
  ∃ u : State, u.group g = some before ∧ u.now = at' elapsed s ∧ u.peers = peers ∧ u.station.phase = t.station.phase
    ∧ u.station.config = t.station.config ∧ u.station.number = t.station.number
    ∧ (∀ l, (t.laneSettings l).article &&& before.record.mask = before.record.key →
      (u.lane l).service.state = (t.lane l).service.state ∧ (u.lane l).counter.count = (t.lane l).counter.count
        ∧ (u.lane l).counter.confidence = (t.lane l).counter.confidence)
    ∧ (evaluate g u).group g = some after

/-- The group with its membership-changed flag as given (R136). -/
def Group.flagged (flag : Bool) (gr : Group) : Group := { gr with record := { gr.record with membershipChanged := flag } }

/-- What the groups take of a change of the table, with each side absent where there was no entry (R126, R136, R143): a group that matches on
neither side stays; any other is evaluated with the table as it stands, its flag set by an entry gained or lost, or by a report that moves
state or confidence. -/
def NoticeTaken (elapsed : Nat) (before after : Option PeerEntry) (s t : State) : Prop :=
  ∀ g gr, s.group g = some gr →
    let holds (x : Option PeerEntry) : Prop := ∃ y, x = some y ∧ y.article &&& gr.record.mask = gr.record.key
    (¬ holds before → ¬ holds after → t.group g = some gr)
      ∧ (holds before ∨ holds after → ∃ flag : Bool, ∃ done, t.group g = some done
        ∧ Evaluates elapsed s t t.peers g (gr.flagged flag) done
        ∧ (flag = true ↔ gr.record.membershipChanged = true ∨ ¬(holds before ↔ holds after)
          ∨ ∃ b a, before = some b ∧ after = some a ∧ holds before ∧ holds after ∧ Moves b.state a.state b.confidence a.confidence))

/-- What the groups take of a replacement (R121, R126, R143): the removal with its evaluation, and then the insertion with its own. Both
evaluations see the table as it stands after both notices (R126, log 8). -/
def ReplacementTaken (elapsed : Nat) (old new : PeerEntry) (s t : State) : Prop :=
  ∀ g gr, s.group g = some gr →
    let holds (x : PeerEntry) : Prop := x.article &&& gr.record.mask = gr.record.key
    let evaluated (before done : Group) : Prop := Evaluates elapsed s t t.peers g before done
    (¬ holds old → ¬ holds new → t.group g = some gr)
      ∧ (¬(holds old ↔ holds new) → ∃ done, t.group g = some done ∧ evaluated (gr.flagged true) done)
      ∧ (holds old → holds new → ∃ first done, evaluated (gr.flagged true) first ∧ t.group g = some done ∧ evaluated first done)

/-- The lane's state, count or confidence has changed (R49, R61). -/
def LaneDiffers (s t : State) (l : LaneNo) : Prop :=
  (s.lane l).service.state ≠ (t.lane l).service.state ∨ (s.lane l).counter.count ≠ (t.lane l).counter.count
    ∨ (s.lane l).counter.confidence ≠ (t.lane l).counter.confidence

/-- What changes of the lanes hand on. The report of each lane that has changed is due, or waits in the queue (R49, R61, R67, R113). A group
whose articles no changed lane holds stays; any other is evaluated after each change, so that its figures are those of the lanes as they
end, and its flag is set by a change that moves state or confidence (R136, R143). Where one lane alone has changed, and once, the group is
what that evaluation makes of it. -/
def LanesHandOn (elapsed : Nat) (s t : State) : Prop :=
  (∀ l, LaneDiffers s t l → (t.lane l).service.reportDue = true
    ∨ (t.lane l).service.state.offers = true ∧ t.queue.any (fun x => x.waitsFor (.stock l)) = true)
  ∧ ∀ g gr, s.group g = some gr →
    let changed (l : LaneNo) : Prop := (s.laneSettings l).article &&& gr.record.mask = gr.record.key ∧ LaneDiffers s t l
    let moved : Prop := gr.record.membershipChanged = true ∨ ∃ l, changed l
      ∧ Moves (s.lane l).service.state (t.lane l).service.state (s.lane l).counter.confidence (t.lane l).counter.confidence
    ((∀ l, ¬ changed l) → t.group g = some gr)
      ∧ (∀ l, changed l → ∃ done, t.group g = some done
        ∧ done.record.aggregate = aggregateOf (t.holders gr.record.key gr.record.mask)
        ∧ done.record.quality = qualityOf (t.holders gr.record.key gr.record.mask)
        ∧ done.record.suspending = suspendingOf (t.holders gr.record.key gr.record.mask)
        ∧ done.record.condition = conditionOf done.record.level done.record.quality
        ∧ (done.record.membershipChanged = true ↔ moved)
        ∧ ((∀ m, m ≠ l → ¬ changed m) → (s.lane l).service.state ≠ .fault ∨ (t.lane l).service.state ≠ .inService →
          ∃ flag : Bool, (flag = true ↔ moved) ∧ Evaluates elapsed s t t.peers g (gr.flagged flag) done))

/-- The lane forms a group at the load (R131): it starts, and no lane of lower number that starts has its key and mask. -/
abbrev Configuration.formsGroup (c : Configuration) (l : LaneNo) : Prop :=
  (c.lanes.get l).starts = true ∧ ∀ m, m < l → (c.lanes.get m).starts = true →
    ¬((c.lanes.get m).mask = (c.lanes.get l).mask
      ∧ (c.lanes.get m).article &&& (c.lanes.get m).mask = (c.lanes.get l).article &&& (c.lanes.get l).mask)

/-- What the load leaves in the groups and the alert records (R131, R146, R174): the lanes that form a group give them the numbers from 0 in
lane order, with the lane's own key, mask, P, E, H and Ld; the record starts with no figures and the alert record CLEAR with its origin
at now, and the group is evaluated once. -/
def FormsGroups (elapsed : Nat) (c : Configuration) (s t : State) : Prop :=
  (∀ (l : LaneNo) (g : GroupNo), c.formsGroup l → g.val = (allLanes.filter fun m => decide (m < l ∧ c.formsGroup m)).length →
    let own := c.lanes.get l
    let record : GroupRecord :=
      { key := own.article &&& own.mask, mask := own.mask, parameterLane := l
        reorderPoint := own.reorderPoint, emptyPoint := own.emptyPoint, hysteresis := own.hysteresis, leadTimeMin := own.leadTimeMin
        aggregate := 0, quality := .indeterminate, level := .ok, condition := false, suspending := false
        previousAggregate := 0, rate := 0, membershipChanged := false }
    let alert : Alert := ⟨.clear, none, none, false, none, none, none, none, 0, at' elapsed s⟩
    ∃ done, t.group g = some done ∧ Evaluates elapsed s t t.peers g ⟨record, alert⟩ done
      ∧ (s.peers = [] → done = ⟨record, alert⟩))
  ∧ ∀ g : GroupNo, (allLanes.filter fun m => decide (c.formsGroup m)).length ≤ g.val → t.group g = none

/-- The end of a round whose channel records are `channels` (R12, R13): the results are delivered and set back to none, and a pending round
starts with its bus check. A lane whose channel has become FAULTED is in FAULT with its confidence UNKNOWN. What the lanes' changes hand on
follows. -/
def RoundEnds (dataHigh : Bool) (channels : Eight Channel) (elapsed : Nat) (s t : State) : Prop :=
  let now := at' elapsed s
  (∀ d, t.engine.channels.get d = { channels.get d with result := .none })
    ∧ t.engine.pendingRound = false
    ∧ (s.engine.pendingRound = false → t.engine.transaction = none)
    ∧ (s.engine.pendingRound = true → ∀ first others, s.channelsFrom 0 = first :: others →
      t.engine.transaction = some ⟨.channel first, checkedStage now dataHigh⟩)
    ∧ (∀ l, (s.lane l).faultsBy s.engine.channels channels →
      (t.lane l).service.state = .fault ∧ (t.lane l).service.holdTimer = none ∧ (t.lane l).service.faultBeatOrigin = now
        ∧ (t.lane l).counter = { (s.lane l).counter with confidence := .unknown }
        ∧ (t.lane l).weighing = { (s.lane l).weighing with motion := .moving, window := [], previousGross := none })
    ∧ ((∀ l g, ¬ s.shockIn channels now l g) → QuietRound channels now s t)
    ∧ (∀ l g, s.shockIn channels now l g → HoldoffMoving s → ShockedRound channels now l g s t)
    ∧ LanesHandOn elapsed s t
    ∧ t.peers = s.peers

/-- A group's record has entered PENDING: its deference ends after the base times its rank plus 1, with the rank taken from the table as it
stands, and a random jitter of 0 to 63 ms (R148). -/
def Defers (elapsed : Nat) (r : GroupRecord) (s : State) (a : Alert) : Prop :=
  a.state = .pending ∧ ∃ jitter < 64, a.deference
    = some ((at' elapsed s).addMs (s.settings.deferenceUnits * 100 * (rank s.number r s.peers + 1) + jitter))

end Sys2Proof.Machine

open Sys2Proof Sys2Proof.Machine

/-! ## Steps and resets -/

/-- A step runs the command at the front of the queue on the state with the queue's rest. -/
def Obligations.StepRunsTheFrontCommand : Prop :=
  ∀ (c : Instr) (rest : List Instr) (s : State),
    step { s with pending := c :: rest } = exec c { s with pending := rest }

/-- With no command waiting a step leaves the state as it is (the model's choice, log 3), and no command fault but for operands that no
event can have (log 12). -/
def Obligations.EveryWellFormedCommandAnswers : Prop :=
  (∀ s : State, s.pending = [] → step s = .next s)
    ∧ (∀ (i : Instr) (s : State), i.wf = true → ∃ t, exec i s = .next t)
    ∧ (∀ (i : Instr) (s : State), i.wf = false → exec i s = .fault .malformedCommand)

/-- What every reset leaves in every block. -/
def Obligations.ResetLeavesEveryBlockAtItsValues : Prop :=
  ∀ (cause : ResetCause) (supplyGood : Bool) (buttons : Four Bool) (choices : Nat) (pending : List Instr),
    let s := State.afterReset cause supplyGood buttons choices pending
    (∀ c, s.engine.channels.get c = ⟨0, 0, 0, 1, .idle, 0, 0, none, .none⟩)
      ∧ s.engine.roundTimer = none ∧ s.engine.pendingRound = false ∧ s.engine.transaction = none
      ∧ (∀ l, (s.lane l).weighing = ⟨[], none, [], [], .moving, false⟩ ∧ (s.lane l).counter = ⟨0, .unknown, 0, false, false, false⟩
        ∧ (s.lane l).service.state = .off ∧ (s.lane l).service.button = .inactive ∧ (s.lane l).service.press = .none
        ∧ (s.lane l).service.holdTimer = none ∧ (s.lane l).service.flash = false
        ∧ (s.lane l).service.refuseOrigin = Time.zero ∧ (s.lane l).service.holdBeatOrigin = Time.zero
        ∧ (s.lane l).service.faultBeatOrigin = Time.zero ∧ (s.lane l).service.reportDue = false
        ∧ (s.lane l).service.surveyDelay = none ∧ s.lampPattern l = .dark)
      ∧ s.shock = ⟨none, none, 0, Four.all 0, 1, false⟩
      ∧ s.line.state = .active ∧ s.line.tecCount = 0 ∧ s.line.recCount = 0 ∧ s.line.lastError = .none
      ∧ s.line.receiver = .waitIdle ∧ s.line.attempt = none ∧ s.line.stuckSince = none ∧ s.line.secondTimer = none
      ∧ (∀ since, s.line.use ≠ .idle since) ∧ s.line.lowEnd = s.station.clock
      ∧ s.queue = [] ∧ s.peers = [] ∧ (∀ g, s.group g = none) ∧ s.reportTimer = none ∧ s.rateTick = none
      ∧ s.station.phase = .reset ∧ s.station.clock = Time.zero ∧ s.station.resetCause = cause ∧ s.station.config = none
      ∧ s.station.counters = Counters.zero ∧ s.station.flags = Flags.clear ∧ s.station.joinTimer = none
      ∧ s.station.warmUpTimer = none ∧ s.station.brownOut = .none

/-- A power-on and an assertion of the reset input leave the reset state with their cause; in RESET the input changes nothing. A RESTART
from a gateway for the own number makes the reset state with its cause, and the end of its RESET follows: the clock at 0, the straps read, and
WARM-UP with a valid number or CONFIG FAULT without one. That the end belongs to the RESTART's own event, which brings the straps with it, is
the model's reading (log 25). In the reset state the levels of the input pins (log 15), the station number 0 (log 16), the reset values that
the spec does not state (log 17), and the kept count of choices and queue of commands (log 24) are the model's choice. -/
def Obligations.ResetsEndInTheResetState : Prop :=
  ∀ s : State,
    let buttons := s.lanes.map fun lane => lane.service.buttonInput
    exec .powerOnReset s = .next (State.afterReset .powerOn s.station.supplyGood buttons s.choices s.pending)
      ∧ (Awake s →
        exec .resetInput s = .next (State.afterReset .resetInput s.station.supplyGood buttons s.choices s.pending))
      ∧ (s.station.phase = .reset → exec .resetInput s = .next s)
      ∧ (∀ (e sender : Nat) (chars : List Byte) (straps : BitVec 6), Arrives sender (.restart s.number) chars s →
        61 ≤ sender → sender ≤ 63 →
          let atReset := State.afterReset .restart s.station.supplyGood buttons s.choices s.pending
          ∃ t, exec (.restart e ⟨chars, straps⟩) s = .next t ∧ exec (.resetEnd straps) atReset = .next t
            ∧ t.station.phase = (if validNumber straps then .warmUp else .configFault)
            ∧ t.station.number = straps ∧ t.station.resetCause = .restart ∧ t.station.clock = Time.zero
            ∧ t.station.brownOut = (if s.station.supplyGood then .none else .low)
            ∧ t.station.warmUpTimer = (if validNumber straps && s.station.supplyGood then some ⟨500, 0⟩ else none)
            ∧ t.station.config = none ∧ t.station.counters = Counters.zero ∧ t.station.flags = Flags.clear
            ∧ t.engine = atReset.engine ∧ t.line = atReset.line ∧ t.shock = atReset.shock
            ∧ t.queue = [] ∧ t.peers = [] ∧ (∀ g, t.group g = none) ∧ t.reportTimer = none ∧ t.rateTick = none
            ∧ ∀ l, (t.lane l).service.state = .off ∧ (t.lane l).counter = (atReset.lane l).counter
              ∧ (t.lane l).weighing = (atReset.lane l).weighing)

/-- The end of RESET: the straps are read, and the station enters WARM-UP with a valid number and CONFIG FAULT without one, where the lamps
begin FAULT BEAT; a supply that is low at that instant begins a brown-out. -/
def Obligations.ResetEndReadsTheStraps : Prop :=
  ∀ (straps : BitVec 6) (s : State), s.station.phase = .reset →
    ∃ t, exec (.resetEnd straps) s = .next t
      ∧ t.station.clock = Time.zero ∧ t.station.number = straps ∧ t.station.seed = ⟨straps, none⟩
      ∧ t.station.resetCause = s.station.resetCause
      ∧ t.station.brownOut = (if s.station.supplyGood then .none else .low)
      ∧ (1 ≤ straps.toNat ∧ straps.toNat ≤ 60 → t.station.phase = .warmUp
        ∧ (s.station.supplyGood = true → t.station.warmUpTimer = some ⟨500, 0⟩) ∧ t.lanes = s.lanes ∧ t.engine = s.engine)
      ∧ (straps.toNat = 0 ∨ 61 ≤ straps.toNat → t.station.phase = .configFault ∧ t.station.warmUpTimer = none
        ∧ ∀ l, (t.lane l).service.faultBeatOrigin = Time.zero ∧ (t.lane l).service.state = (s.lane l).service.state)
      ∧ t.line = s.line ∧ t.queue = s.queue ∧ t.shock = s.shock ∧ t.peers = s.peers ∧ t.groups = s.groups

/-! ## The configuration read and the load -/

/-- The warm-up's expiry begins the first read attempt with its bus check. -/
def Obligations.WarmUpEndBeginsTheRead : Prop :=
  ∀ (e : Nat) (d : Bool) (s : State), Awake s → due s.station.warmUpTimer (at' e s) = true →
    exec (.warmUpEnd e d) s
      = .next (keepUp { passTime e s with
          station := { (passTime e s).station with phase := .loading, warmUpTimer := none, block := [] }
          engine := { s.engine with transaction := some ⟨.configRead, checkedStage (at' e s) d⟩ } })

/-- A segment with its right tag, not the last one, is kept and the read goes on. -/
def Obligations.SegmentWithRightTagIsKept : Prop :=
  ∀ (e segment : Nat) (bytes : List Byte) (d : Bool) (s : State), Awake s → s.engine.reading = true → bytes.length = 32 →
    s.station.block.length = 32 * segment → segment < 7 → bytes.head? = some (BitVec.ofNat 8 (0xA0 + segment)) →
      exec (.configSegmentEnd e bytes d) s
        = .next (keepUp { passTime e s with
            station := { (passTime e s).station with block := s.station.block ++ bytes }
            engine := { s.engine with transaction := some ⟨.configRead, .underWay (at' e s)⟩ } })

/-- A wrong tag, a missing acknowledge before any byte is read, a clock hold by the memory that ends in a STOP or in a held bus, and a bus
that is stuck after its recovery each fail the attempt; the stuck bus alone latches the sensor bus fault flag. That the attempt fails at the
STOP, and not at the 2 ms instant, is the model's reading (log 10). The model's own choices are that the bytes of a partial segment come
with the hold (log 31), and that the bus check of the next attempt, in the same event, reads the level that the command brings, after a
recovery that ends low the same low level (log 9). -/
def Obligations.ConfigAttemptFails : Prop :=
  ∀ (e : Nat) (d : Bool) (s : State), Awake s →
    let fails (t : State) : Prop := AttemptFailed e d s t ∧ t.station.flags = s.station.flags
    let stuck (dataHigh : Bool) (t : State) : Prop := AttemptFailed e dataHigh s t
      ∧ t.station.flags = { s.station.flags with sensorBusFault := true } ∧ t.station.notes.flags.sensorBusFault = true
    (∀ (segment : Nat) (bytes : List Byte), s.engine.reading = true → bytes.length = 32 →
      s.station.block.length = 32 * segment → bytes.head? ≠ some (BitVec.ofNat 8 (0xA0 + segment)) →
        ∃ t, exec (.configSegmentEnd e bytes d) s = .next t ∧ fails t)
    ∧ (s.engine.reading = true → s.station.block = [] → ∃ t, exec (.configAcknowledgeMissing e d) s = .next t ∧ fails t)
    ∧ (∀ failedAt, s.engine.transaction = some ⟨.configRead, .stretched failedAt⟩ →
      (at' e s).notAfter (failedAt.addMs 2) = true → ∃ t, exec (.stretchStop e d) s = .next t ∧ fails t)
    ∧ (∀ failedAt, s.engine.transaction = some ⟨.configRead, .stretched failedAt⟩ →
      (failedAt.addMs 2).notAfter (at' e s) = true → ∃ t, exec (.busHeld e d) s = .next t ∧ fails t)
    ∧ (∀ since, s.engine.transaction = some ⟨.configRead, .recovering since⟩ →
      ∃ t, exec (.busRecoveryComplete e false) s = .next t ∧ stuck false t)
    ∧ (∀ (since : Time) (received : List Byte), s.engine.transaction = some ⟨.configRead, .recovering since⟩ →
      received.length ≤ 32 → (since.addMs 2).notAfter (at' e s) = true →
        ∃ t, exec (.stretchTimeout e ⟨received, d⟩) s = .next t ∧ stuck d t)

/-- The eighth segment with its right tag ends the read: a failed check fails the attempt, a version other than 1 is refused, and a block of
version 1 is loaded as one event that ends in JOINING. The config adjusted flag is latched where a field is clamped, an enabled lane drops
a channel, or it has none left. The lanes that start have their report due, the inputs as first seen become the debounced button levels
without a press, and the Shock Monitor takes its own and its neighbour zones and its hold. The starting lanes form the groups with their
parameters, each with an alert record in CLEAR. The round timer gives its first tick, which starts a round outside brown-out; that it acts in
the load event, after the groups are formed, is the model's reading (log 20). -/
def Obligations.LastSegmentEndsTheRead : Prop :=
  ∀ (e : Nat) (bytes : List Byte) (d : Bool) (s : State), Awake s → s.engine.reading = true → bytes.length = 32 →
    s.station.block.length = 224 → bytes.head? = some 0xA7#8 →
      let block := s.station.block ++ bytes
      let config := configurationFrom block
      ∃ t, exec (.configSegmentEnd e bytes d) s = .next t
        ∧ (block.drop 254 ≠ checkChars (checkWord (block.take 254)) → AttemptFailed e d s t)
        ∧ (block.drop 254 = checkChars (checkWord (block.take 254)) → field8 block 0 1 ≠ 1 →
          t.station.phase = .configFault ∧ t.station.config = s.station.config ∧ t.engine.transaction = none)
        ∧ (block.drop 254 = checkChars (checkWord (block.take 254)) → field8 block 0 1 = 1 →
          t.station.phase = .joining ∧ t.station.config = some config
            ∧ t.station.joinTimer = some ⟨at' e s, .notOffered⟩
            ∧ (t.station.flags.configAdjusted = true ↔ s.station.flags.configAdjusted = true ∨ Adjusted block)
            ∧ t.engine.fastBus = config.station.fastBus
            ∧ (∀ c, (t.engine.channels.get c).state = (if loadedAddress block c = 0 then .idle else .ok)
              ∧ (t.engine.channels.get c).address.toNat = loadedAddress block c
              ∧ (t.engine.channels.get c).register = (readChannel block c).register
              ∧ (t.engine.channels.get c).zero = (readChannel block c).zero
              ∧ (t.engine.channels.get c).gain = (loadedChannel block c).gain)
            ∧ t.engine.roundTimer = some ((at' e s).addUs config.station.samplePeriodUs)
            ∧ (∀ first rest, s.inBrownOut = false → (allChannels.filter fun c => decide (loadedAddress block c ≠ 0)) = first :: rest →
              t.engine.transaction = some ⟨.channel first, checkedStage (at' e s) d⟩)
            ∧ (s.inBrownOut = true ∨ (∀ c, loadedAddress block c = 0) → t.engine.transaction = none)
            ∧ (∀ l, (t.lane l).service.state = (if (config.lanes.get l).starts then .starting else .off)
              ∧ (t.lane l).service.reportDue = (config.lanes.get l).starts
              ∧ (t.lane l).service.button
                = (if (s.lane l).service.buttonInput = (readStation block).buttonActiveHigh.get l then .active else .inactive)
              ∧ (t.lane l).service.press = (s.lane l).service.press
              ∧ (t.lane l).weighing.channels = (config.lanes.get l).channels)
            ∧ t.shock.configured = true ∧ t.shock.ownZone = (readStation block).ownZone
            ∧ t.shock.neighbours = (readStation block).neighbours
            ∧ t.shock.holdTime = (readStation block).clamped.holdTime
            ∧ FormsGroups e config s t
            ∧ unmeasured t.line = unmeasured s.line)

/-- The clamping of the block's fields: a legal field is kept, an illegal one becomes the nearest legal value, and the filter depth becomes
the nearest power of two below it. The settling of the channel sets: a lane that is enabled weighs with the channels of its run, up to
channel 7, that have an address and that belong to no enabled lane of lower number. -/
def Obligations.LoadedFieldsAreLegal : Prop :=
  ∀ (block : List Byte),
    let st := stationSettingsFrom block
    let stored := readStation block
    (NearestIn 0 3 stored.sampleRateCode st.sampleRateCode ∧ (st.fastBus = true ↔ 1 ≤ stored.speedCode)
      ∧ NearestIn 2 32 stored.settleWindow st.settleWindow ∧ NearestIn 10 255 stored.reportIntervalS st.reportIntervalS
      ∧ NearestIn 1 60 stored.forgetTimeMin st.forgetTimeMin ∧ NearestIn 3 60 stored.repeatUnits st.repeatUnits
      ∧ NearestIn 1 20 stored.deferenceUnits st.deferenceUnits ∧ NearestIn 1 100 stored.holdTime stored.clamped.holdTime
      ∧ NearestIn 1 120 stored.holdLimitMin st.holdLimitMin ∧ st.buttonActiveHigh = stored.buttonActiveHigh)
    ∧ (st.filterDepth ∈ [1, 2, 4, 8, 16] ∧ (stored.filterDepth = 0 → st.filterDepth = 1)
      ∧ (16 < stored.filterDepth → st.filterDepth = 16)
      ∧ (1 ≤ stored.filterDepth → stored.filterDepth ≤ 16 →
        st.filterDepth ≤ stored.filterDepth ∧ stored.filterDepth < 2 * st.filterDepth))
    ∧ (∀ c, NearestIn 0 127 (readChannel block c).address (loadedAddress block c)
      ∧ NearestIn 1 65535 (readChannel block c).gain (loadedChannel block c).gain
      ∧ (loadedChannel block c).register = (readChannel block c).register
      ∧ (loadedChannel block c).zero = (readChannel block c).zero)
    ∧ ∀ l,
      let f := readLane block l
      let used := laneSettingsFrom block l
      NearestIn 1 255 f.pack used.pack ∧ NearestIn 1 65535 f.unitWeight used.unitWeight ∧ NearestIn 1 65535 f.band used.band
        ∧ NearestIn 0 8388607 f.tare used.tare ∧ NearestIn 0 240 f.leadTimeMin used.leadTimeMin
        ∧ used.enabled = f.enable ∧ used.article = f.article ∧ used.mask = f.mask ∧ used.tolerance = f.tolerance
        ∧ used.capacityKg = f.capacityKg ∧ used.zeroLimit = f.zeroLimit ∧ used.shockKg = f.shockKg
        ∧ used.reorderPoint = f.reorderPoint ∧ used.emptyPoint = f.emptyPoint ∧ used.hysteresis = f.hysteresis
        ∧ (∀ c, c ∈ used.channels ↔ WeighsWith block l c)

/-! ## Rounds and transactions -/

/-- A tick starts a round with the first configured channel, or makes a round pending and counts an overrun, or does nothing in
brown-out. The next tick falls a period after this one in every case. -/
def Obligations.RoundTickStartsOrOverruns : Prop :=
  ∀ (e : Nat) (d : Bool) (tick : Time) (s : State), Awake s → s.engine.roundTimer = some tick →
    tick.notAfter (at' e s) = true →
      let next := some (tick.addUs s.settings.samplePeriodUs)
      (s.inBrownOut = false → s.engine.roundRunning = false → ∀ c rest, s.channelsFrom 0 = c :: rest →
        exec (.roundTick e d) s
          = .next (keepUp { passTime e s with
              engine := { s.engine with roundTimer := next, transaction := some ⟨.channel c, checkedStage (at' e s) d⟩ } }))
      ∧ (s.inBrownOut = false → s.engine.roundRunning = true →
        exec (.roundTick e d) s
          = .next (keepUp { passTime e s with
              station := { (passTime e s).station with
                counters := { s.station.counters with roundOverruns := min (s.station.counters.roundOverruns + 1) 65535 } }
              engine := { s.engine with roundTimer := next, pendingRound := true } }))
      ∧ (s.inBrownOut = true →
        exec (.roundTick e d) s = .next (keepUp { passTime e s with engine := { s.engine with roundTimer := next } }))

/-- The channel record after a good sample and after a failure, by its state before. -/
def Obligations.ChannelHealthFollowsItsTable : Prop :=
  ∀ (c : Channel) (sample : Sample),
    let stored := { c with latest := some sample, result := RoundResult.good }
    let failed := { c with result := RoundResult.failed }
    (c.state = .ok → c.good sample = { stored with failureRun := 0 } ∧ c.fail = { failed with state := .suspect, failureRun := 1 })
      ∧ (c.state = .suspect → c.failureRun = 1 → c.good sample = { stored with state := .ok, failureRun := 0 }
        ∧ c.fail = { failed with failureRun := 2 })
      ∧ (c.state = .suspect → c.failureRun = 2 → c.good sample = { stored with state := .ok, failureRun := 0 }
        ∧ c.fail = { failed with state := .faulted, failureRun := 3, goodRun := 0 })
      ∧ (c.state = .faulted → c.goodRun ≤ 2 → c.good sample = { stored with goodRun := c.goodRun + 1 }
        ∧ c.fail = { failed with goodRun := 0 })
      ∧ (c.state = .faulted → c.goodRun = 3 → c.good sample = { stored with state := .ok, failureRun := 0, goodRun := 0 }
        ∧ c.fail = { failed with goodRun := 0 })

/-- A completed transaction, or the STOP after a STRETCH failure, updates the channel's record and moves on to the next channel; every
failure adds 1 to sensor failures, and the first good sample since the reset seeds the pseudo-random source again. A channel that enters
FAULTED sends its lane to FAULT, and one that leaves it for OK lets a lane in FAULT whose channels are all OK resume. A lane's change makes
its report due and evaluates the groups of its article. That a STRETCH failure is recorded at its STOP is the model's reading (log 10). -/
def Obligations.TransactionEndMovesOn : Prop :=
  ∀ (e : Nat) (dh : Bool) (c next : ChannelNo) (rest : List ChannelNo) (s : State), Awake s →
    s.channelsFrom (c.val + 1) = next :: rest →
      let moved (f : Channel → Channel) (t : State) : Prop :=
        let before := s.engine.channels.get c
        let channels := s.engine.channels.set c (f before)
        let reports := before.state ≠ .faulted ∧ (f before).state = .faulted
        let recovers := before.state = .faulted ∧ (f before).state = .ok
        t.engine = { s.engine with channels := channels, transaction := some ⟨.channel next, checkedStage (at' e s) dh⟩ }
          ∧ t.shock = s.shock ∧ t.peers = s.peers ∧ unmeasured t.line = unmeasured s.line ∧ LanesHandOn e s t
          ∧ ∀ l,
            let lane := s.lane l
            let after := t.lane l
            let mine := c ∈ lane.weighing.channels
            (mine → reports → lane.service.state ≠ .off → lane.service.state ≠ .fault →
              after.weighing = { lane.weighing with motion := .moving, window := [], previousGross := none }
                ∧ after.counter = { lane.counter with confidence := .unknown }
                ∧ after.service.state = .fault ∧ after.service.holdTimer = none ∧ after.service.faultBeatOrigin = at' e s)
            ∧ (mine → recovers → lane.service.state = .fault → (∀ d ∈ lane.weighing.channels, (channels.get d).state = .ok) →
              after.weighing = { lane.weighing with motion := .moving, filter := [], window := [] }
                ∧ after.counter = lane.counter ∧ after.service.state = .resuming ∧ after.service.holdBeatOrigin = at' e s)
            ∧ (¬ mine ∨ ¬ reports ∧ ¬ recovers
                ∨ reports ∧ (lane.service.state = .off ∨ lane.service.state = .fault)
                ∨ recovers ∧ (lane.service.state ≠ .fault ∨ ∃ d ∈ lane.weighing.channels, (channels.get d).state ≠ .ok) →
              after.weighing = lane.weighing ∧ after.counter = lane.counter ∧ after.service.state = lane.service.state)
      (∀ since, s.engine.transaction = some ⟨.channel c, .underWay since⟩ → ∀ status high middle low : Byte,
        status.getLsbD 7 = true →
        ∃ t, exec (.converterTransactionComplete e (.bytesRead status high middle low) dh) s = .next t
          ∧ moved (Channel.good ⟨signed24 high middle low, status.getLsbD 6⟩) t
          ∧ t.station.counters.sensorFailures = s.station.counters.sensorFailures
          ∧ (s.station.seed.sample = none → t.station.seed = ⟨s.station.number, some (signed24 high middle low)⟩)
          ∧ (s.station.seed.sample ≠ none → t.station.seed = s.station.seed))
      ∧ (∀ since, s.engine.transaction = some ⟨.channel c, .underWay since⟩ → ∀ result : ConverterEnd, EndsInFailure result →
        ∃ t, exec (.converterTransactionComplete e result dh) s = .next t ∧ moved Channel.fail t
          ∧ t.station.counters.sensorFailures = min (s.station.counters.sensorFailures + 1) 65535
          ∧ t.station.seed = s.station.seed)
      ∧ (∀ failedAt, s.engine.transaction = some ⟨.channel c, .stretched failedAt⟩ →
        (at' e s).notAfter (failedAt.addMs 2) = true →
        ∃ t, exec (.stretchStop e dh) s = .next t ∧ moved Channel.fail t
          ∧ t.station.counters.sensorFailures = min (s.station.counters.sensorFailures + 1) 65535
          ∧ t.station.seed = s.station.seed)

/-- The transaction of the highest configured channel ends the round, as a completed one, by the STOP after a STRETCH failure or by a bus
that is held: its sample or failure is recorded, every failure adds 1 to sensor failures, the first good sample since the reset seeds the
pseudo-random source again, and the round ends with what it gives the lanes and the Shock Monitor. A change of a lane's state, count or
confidence makes its report due and evaluates the groups of its article. That a STRETCH failure is recorded at its STOP, or where the bus is
held, is the model's reading (log 10), and so is the flag where no later channel is left (log 11). -/
def Obligations.LastTransactionEndsTheRound : Prop :=
  ∀ (e : Nat) (dh : Bool) (c : ChannelNo) (s : State), Awake s → s.channelsFrom (c.val + 1) = [] → s.configured c = true →
    let before := s.engine.channels.get c
    let ended (after : Channel) (t : State) : Prop := RoundEnds dh (s.engine.channels.set c after) e s t
    (∀ (since : Time) (result : ConverterEnd), s.engine.transaction = some ⟨.channel c, .underWay since⟩ →
      ∃ t, exec (.converterTransactionComplete e result dh) s = .next t ∧ ended (before.ended result) t
        ∧ (EndsInFailure result →
          t.station.counters.sensorFailures = min (s.station.counters.sensorFailures + 1) 65535)
        ∧ (¬ EndsInFailure result → t.station.counters.sensorFailures = s.station.counters.sensorFailures)
        ∧ t.station.seed = s.station.seedAfter result)
    ∧ (∀ failedAt, s.engine.transaction = some ⟨.channel c, .stretched failedAt⟩ →
      (at' e s).notAfter (failedAt.addMs 2) = true →
      ∃ t, exec (.stretchStop e dh) s = .next t ∧ ended before.fail t
        ∧ t.station.counters.sensorFailures = min (s.station.counters.sensorFailures + 1) 65535)
    ∧ (∀ failedAt, s.engine.transaction = some ⟨.channel c, .stretched failedAt⟩ →
      (failedAt.addMs 2).notAfter (at' e s) = true →
      ∃ t, exec (.busHeld e dh) s = .next t ∧ ended before.fail t
        ∧ t.station.counters.sensorFailures = min (s.station.counters.sensorFailures + 1) 65535
        ∧ t.station.flags.sensorBusFault = true)

/-- A clock hold that fails stops the transaction until the clock line rises, and nothing else: that its failure is recorded only at the
STOP is the model's reading (log 10), and that the configuration bytes received before it come with it is its choice (log 31). A recovery
that frees the data line lets the transaction begin. -/
def Obligations.HoldsAndRecoveries : Prop :=
  ∀ (e : Nat) (d : Bool) (user : BusUser) (since : Time) (s : State), Awake s →
    (∀ received : List Byte, s.engine.transaction = some ⟨user, .underWay since⟩ → received.length ≤ 32 →
      (since.addMs 2).notAfter (at' e s) = true →
      exec (.stretchTimeout e ⟨received, d⟩) s
        = .next (keepUp { passTime e s with
            station := { (passTime e s).station with
              block := match user with
                | .configRead => s.station.block ++ received
                | .channel _ => s.station.block }
            engine := { s.engine with transaction := some ⟨user, .stretched (at' e s)⟩ } }))
    ∧ (s.engine.transaction = some ⟨user, .recovering since⟩ →
      exec (.busRecoveryComplete e true) s
        = .next (keepUp { passTime e s with engine := { s.engine with transaction := some ⟨user, .underWay (at' e s)⟩ } }))

/-- A bus that is stuck after the recovery, or held after a STRETCH failure, latches the sensor bus fault flag and ends the round: a
failure for the channel and for each later configured one, and the end of the round with what it gives the lanes. A pending round then
starts. That the STRETCH failure of a held bus is recorded here is the model's reading (log 10), and so is the flag where no later channel
is left (log 11); that the bus check of the pending round, in the same event, reads the level that the command brings, after a recovery
that ends low the same low level, is its choice (log 9). -/
def Obligations.StuckBusEndsTheRound : Prop :=
  ∀ (e : Nat) (d : Bool) (c : ChannelNo) (s : State), Awake s → s.configured c = true →
    let failed := Eight.of fun x => if c ≤ x then (s.engine.channels.get x).fail else s.engine.channels.get x
    let ended (dataHigh : Bool) (t : State) : Prop :=
      RoundEnds dataHigh failed e s t
        ∧ t.station.flags.sensorBusFault = true ∧ t.station.notes.flags.sensorBusFault = true
        ∧ t.station.counters.sensorFailures
          = min (s.station.counters.sensorFailures + (s.channelsFrom c.val).length) 65535
    (∀ since, s.engine.transaction = some ⟨.channel c, .recovering since⟩ →
        ∃ t, exec (.busRecoveryComplete e false) s = .next t ∧ ended false t)
      ∧ (∀ (since : Time) (received : List Byte), s.engine.transaction = some ⟨.channel c, .recovering since⟩ →
        received.length ≤ 32 → (since.addMs 2).notAfter (at' e s) = true →
          ∃ t, exec (.stretchTimeout e ⟨received, d⟩) s = .next t ∧ ended d t)
      ∧ (∀ failedAt, s.engine.transaction = some ⟨.channel c, .stretched failedAt⟩ →
        (failedAt.addMs 2).notAfter (at' e s) = true → ∃ t, exec (.busHeld e d) s = .next t ∧ ended d t)

/-! ## Brown-out -/

/-- The supply monitor's fall begins a brown-out that drops the sensor bus transaction and round and cuts off an own attempt. Cut off while
sending, the ON LINE entry comes back as it was; cut off while jamming, its collision counts with now as the end of the jam: it backs off, or
at the 8th it is discarded. That a DISTURB is past its hold, and does not come back, 1 ms after it is the model's reading (log 13), and so is
that a STRETCH failure whose STOP has not come yet is dropped with its transaction (log 10); the mark that the not-before time has passed is
the model's own (log 14). -/
def Obligations.SupplyLowBeginsBrownOut : Prop :=
  ∀ (e : Nat) (s : State), Awake s →
    ∃ t, exec (.supplyMonitorLow e) s = .next t
      ∧ t.station.brownOut = .low ∧ t.station.supplyGood = false ∧ t.station.warmUpTimer = none
      ∧ t.station.phase = s.station.phase ∧ t.station.clock = at' e s
      ∧ t.engine.transaction = none ∧ t.engine.pendingRound = false ∧ t.engine.roundTimer = s.engine.roundTimer
      ∧ (∀ d, t.engine.channels.get d = { s.engine.channels.get d with result := .none })
      ∧ t.line.attempt = none ∧ (s.line.attempt ≠ none → t.line.receiver = .waitIdle)
      ∧ (∀ a x, s.line.attempt = some a → onLineEntry s.queue = some x →
        (a.stage = .sending → ComesBack e x id s t ∧ t.line.tecCount = s.line.tecCount
          ∧ apartFromQueue t.station.counters = apartFromQueue s.station.counters)
        ∧ (a.stage = .jamming → x.attempts < 7 → t.line.tecCount = s.line.tecCount
          ∧ apartFromQueue t.station.counters = apartFromQueue s.station.counters
          ∧ ∃ r, r < 2 ^ min (x.attempts + 1) 6 ∧ ComesBack e x (fun o => { o with
              attempts := x.attempts + 1
              notBefore := (at' e s).addUs (r * 512)
              passed := ((at' e s).addUs (r * 512)).notAfter (at' e s) }) s t)
        ∧ (a.stage = .jamming → 7 ≤ x.attempts → onLineEntry t.queue = none
          ∧ t.line.tecCount = min (s.line.tecCount + 8) 255
          ∧ t.station.counters.excessiveCollisionDiscards
            = min (s.station.counters.excessiveCollisionDiscards + 1) 65535))
      ∧ t.shock = s.shock ∧ t.peers = s.peers
      ∧ ∀ l, (t.lane l).counter = (s.lane l).counter ∧ (t.lane l).service.state = (s.lane l).service.state

/-- The brown-out ends when the supply monitor has been high for 100 ms, and the phase continues. A lane IN SERVICE or HELD resumes: MOVING
with its windows emptied, its hold timer stopped, its HOLD BEAT beginning now unless it runs on from the hold, its count and confidence
kept. It reports its change and has the groups of its article evaluated. -/
def Obligations.BrownOutEndContinuesThePhase : Prop :=
  ∀ (e : Nat) (d : Bool) (s : State), Awake s →
    (s.station.brownOut = .low →
      exec (.supplyMonitorHigh e) s
        = .next (keepUp { passTime e s with
            station := { (passTime e s).station with supplyGood := true, brownOut := .high ((at' e s).addMs 100) } }))
    ∧ (∀ ends, s.station.brownOut = .high ends → ends.notAfter (at' e s) = true →
      ∃ t, exec (.brownOutEnd e d) s = .next t ∧ t.station.brownOut = .none ∧ t.station.phase = s.station.phase
        ∧ (s.station.phase = .warmUp → t.station.warmUpTimer = some ((at' e s).addMs 500))
        ∧ (s.station.phase = .loading →
          t.engine.transaction = some ⟨.configRead, checkedStage (at' e s) d⟩ ∧ t.station.block = []
            ∧ t.engine.failedAttempts = s.engine.failedAttempts)
        ∧ (s.station.phase = .joining ∨ s.station.phase = .running → ∀ l,
          let before := (s.lane l).service
          let after := (t.lane l).service
          let resumes : Prop := before.state = .inService ∨ before.state = .held
          (resumes → after.state = .resuming
            ∧ (t.lane l).weighing = { (s.lane l).weighing with motion := .moving, filter := [], window := [] })
          ∧ (¬ resumes → after.state = before.state ∧ (t.lane l).weighing = (s.lane l).weighing)
          ∧ after.holdTimer = (if resumes then none else before.holdTimer)
          ∧ after.holdBeatOrigin = (if before.state = .inService then at' e s else before.holdBeatOrigin)
          ∧ (t.lane l).counter = (s.lane l).counter)
        ∧ LanesHandOn e s t)

/-! ## The line and its receiver -/

/-- The line becomes idle 24 bit times after it was seen LOW last, not before, which leaves a frame in reception as it is; outside frames a
command that is on time does not pass over that moment (log 4). It becomes busy otherwise than through the own attempt; the first character
in READY is judged; a break, and a framing fault of that first character, send the receiver to WAIT IDLE without a line
error. When the line counts as busy and from which moment its HIGH time is measured in each of these events is the model's reading (log 23,
log 29). -/
def Obligations.ReceiverFollowsTheLine : Prop :=
  ∀ (e : Nat) (s : State), Awake s → s.line.attempt = none →
    let busy := s.line.use = .busyOwn ∨ s.line.use = .busyOther
    let inFrame := ∃ received stopEnd, s.line.receiver = .inFrame received stopEnd
    let line (lc : LineController) : Host.Outcome State Fault Refusal := .next (keepUp { passTime e s with line := lc })
    (busy → IdleComes s.line.lowEnd (at' e s) → s.line.receiver = .waitIdle →
      exec (.lineIdle e) s = line { s.line with use := .idle (s.line.lowEnd.addUs 192), level := .high, receiver := .ready })
    ∧ (busy → IdleComes s.line.lowEnd (at' e s) → inFrame →
      exec (.lineIdle e) s = line { s.line with use := .idle (at' e s), level := .high })
    ∧ (¬ IdleComes s.line.lowEnd (at' e s) → exec (.lineIdle e) s = line s.line)
    ∧ (busy → ¬ inFrame → ∀ i, Punctual i s → (at' (elapsedOf i) s).notAfter (s.line.lowEnd.addUs 192) = true)
    ∧ exec (.lineBusy e) s = line { s.line with use := .busyOther, level := .low, lowEnd := (at' e s).addUs 8 }
    ∧ (∀ value : Byte, s.line.receiver = .ready →
      exec (.readyCharacterReceived e value) s
        = line { s.line with
              use := .busyOther
              level := .high
              lowEnd := (at' e s).subUs (4 + highTail value * 8)
              receiver := if value = 0xC5#8 then .inFrame [0xC5#8] ((at' e s).addUs 4) else .waitIdle })
    ∧ (s.line.receiver = .ready ∨ inFrame →
      exec (.lineBreak e) s
        = line { s.line with use := .busyOther, level := .low, lowEnd := at' e s, receiver := .waitIdle })
    ∧ (s.line.receiver = .ready →
      exec (.framingFault e) s
        = line { s.line with use := .busyOther, level := .high, lowEnd := at' e s, receiver := .waitIdle })

/-- A busy line marks every entry enqueued before now, and a WAITING entry on a busy line runs the stuck measurement. -/
def Obligations.BusyLineMarksTheQueue : Prop :=
  ∀ (e : Nat) (s : State), Awake s → s.line.attempt = none →
    ∃ t, exec (.lineBusy e) s = .next t
      ∧ unmarked t.queue = unmarked s.queue
      ∧ (∀ x ∈ t.queue, x.enqueued.before (at' e s) = true → x.busySeen = true)
      ∧ (s.queue.any Entry.waiting = true → s.inBrownOut = false →
        t.line.stuckSince = some (s.line.stuckSince.getD (at' e s)))
      ∧ (s.queue.any Entry.waiting = false ∨ s.inBrownOut = true → t.line.stuckSince = none)

/-- The four ways a frame ends with a line error, and its three effects; a REC that reaches 128 makes the line LISTEN-ONLY. The
receiver enters WAIT IDLE; after a gap that, with the HIGH end of the character before it, makes 24 bit times it goes on to READY, which is
the model's reading (log 23). -/
def Obligations.LineErrorHasThreeEffects : Prop :=
  ∀ (e : Nat) (received : List Byte) (stopEnd : Time) (s : State), Awake s → s.line.receiver = .inFrame received stopEnd →
    let failed (code : LineError) (t : State) : Prop :=
      t.line.lastError = code ∧ t.line.recCount = min (s.line.recCount + 1) 255
        ∧ t.station.counters.lineErrors = min (s.station.counters.lineErrors + 1) 65535
        ∧ t.station.notes.errorCode = true ∧ t.line.tecCount = s.line.tecCount
        ∧ (s.line.state = .active → 127 ≤ s.line.recCount → EntersListenOnly e s t)
        ∧ t.peers = s.peers ∧ t.shock = s.shock ∧ t.engine = s.engine
    (∃ t, exec (.framingFault e) s = .next t ∧ failed .framing t ∧ t.line.receiver = .waitIdle)
      ∧ (∀ (chars : List Byte) (gap : Nat), isBeginning chars = true → 160 < gap → gap ≤ 168 →
        (stopEnd.addUs (80 * chars.length + gap)).notAfter (at' e s) = true →
        let lowEnd := (at' e s).subUs (gap + 8 + highTail (chars.getLast?.getD 0xC5#8) * 8)
        ∃ t, exec (.frameGapTimeout ⟨e, chars, gap⟩) s = .next t ∧ failed .length t
          ∧ (¬ IdleComes lowEnd (at' e s) → t.line.receiver = .waitIdle ∧ t.line.use = .busyOther)
          ∧ (IdleComes lowEnd (at' e s) → t.line.receiver = .ready ∧ t.line.use = .idle (lowEnd.addUs 192)))
      ∧ (∀ sender kind length : Byte, 40 < length.toNat →
        ∃ t, exec (.bodyLengthTooLong e sender kind length) s = .next t ∧ failed .length t ∧ t.line.receiver = .waitIdle)
      ∧ (∀ chars code, judge chars = .error code →
        ∃ t, exec (.frameRejected e chars) s = .next t ∧ failed code t ∧ t.line.receiver = .waitIdle)

/-- Every good frame that resets nothing lowers REC by 1, not below 0, and leaves the receiver in WAIT IDLE, whatever filtering does
with it: a RESTART too that the station does not take. A STATUS frame from another station is filtered out. -/
def Obligations.GoodFrameLowersRec : Prop :=
  ∀ (e sender : Nat) (body : RxBody) (received chars : List Byte) (straps : BitVec 6) (stopEnd : Time) (s : State), Awake s →
    s.line.receiver = .inFrame received stopEnd → judge chars = .good sender body →
    (∀ target, body = .restart target →
      validNumber s.station.number = false ∨ sender < 61 ∨ 63 < sender ∨ target ≠ s.number) →
      ∃ t, exec (rowOf body e chars straps) s = .next t
        ∧ t.line.recCount = s.line.recCount - 1 ∧ t.line.receiver = .waitIdle ∧ t.line.tecCount = s.line.tecCount
        ∧ t.line.lastError = s.line.lastError ∧ t.engine = s.engine ∧ (∀ l, (t.lane l).counter = (s.lane l).counter)
        ∧ (body = .status → LineCountsSound s → validNumber s.station.number = true → sender ≠ 0 → sender ≠ s.number →
          t.station.counters.framesFilteredOut = min (s.station.counters.framesFilteredOut + 1) 65535
            ∧ t.lanes = s.lanes ∧ t.peers = s.peers ∧ t.groups = s.groups ∧ t.shock = s.shock)

/-- The tests of the sender, and then those of the kind. Without a valid number every frame is filtered out, sender 0 is filtered out, and
the own number latches the number clash flag without a count. A frame of a station kind whose condition fails is filtered out; one of a
gateway kind is refused and counted from a sender outside 61 to 63, and filtered out if it names no own group or another number. -/
def Obligations.SenderIsTestedFirst : Prop :=
  ∀ (e sender : Nat) (body : RxBody) (received chars : List Byte) (straps : BitVec 6) (stopEnd : Time) (s : State), Awake s →
    s.line.receiver = .inFrame received stopEnd → judge chars = .good sender body → LineCountsSound s →
      let filteredOut (t : State) : Prop :=
        t.station = { s.station with
            clock := at' e s
            counters := { s.station.counters with
              framesFilteredOut := min (s.station.counters.framesFilteredOut + 1) 65535 } }
          ∧ t.lanes = s.lanes ∧ unmarked t.queue = unmarked s.queue ∧ t.peers = s.peers ∧ t.groups = s.groups ∧ t.shock = s.shock
      let passes := validNumber s.station.number = true ∧ sender ≠ 0 ∧ sender ≠ s.number
      ∃ t, exec (rowOf body e chars straps) s = .next t
        ∧ (validNumber s.station.number = false ∨ sender = 0 → filteredOut t)
        ∧ (validNumber s.station.number = true → sender ≠ 0 → sender = s.number →
          t.station = { s.station with
              clock := at' e s
              flags := { s.station.flags with numberClash := true }
              notes := { s.station.notes with flags := { s.station.notes.flags with numberClash := true } } }
            ∧ t.lanes = s.lanes ∧ unmarked t.queue = unmarked s.queue ∧ t.peers = s.peers ∧ t.groups = s.groups ∧ t.shock = s.shock)
        ∧ (passes → ¬ GatewayKind body → ¬ StationKept sender body s → filteredOut t)
        ∧ (passes → GatewayKind body → sender < 61 ∨ 63 < sender →
          t.station = { s.station with
              clock := at' e s
              counters := { s.station.counters with
                refusedGatewayCommands := min (s.station.counters.refusedGatewayCommands + 1) 65535 } }
            ∧ t.lanes = s.lanes ∧ unmarked t.queue = unmarked s.queue ∧ t.peers = s.peers ∧ t.groups = s.groups ∧ t.shock = s.shock)
        ∧ (passes → GatewayKind body → 61 ≤ sender → sender ≤ 63 → ¬ GatewayKept body s → filteredOut t)

/-! ## Frames that reach a block -/

/-- A kept STOCK overwrites the entry of its key, is inserted in a table with room, takes the place in a full one of the STALE entry with the
oldest arrival, of equal ones the first in key order, and is dropped and counted in one without a STALE entry. A pack of 0 is taken as 1. Each
change but of the arrival time alone evaluates the groups that match on either side, with their membership-changed flags. A replacement
evaluates for the removal and then for the insertion, both with the table as it stands after both notices; how the model reads the two rules
on it together is in log 8. -/
def Obligations.StockReachesTheTable : Prop :=
  ∀ (e sender : Nat) (lane : LaneNo) (article : Word) (pack count stateCode confidenceCode : Nat) (state : LaneState)
    (confidence : Confidence) (chars : List Byte) (s : State),
    Arrives sender (.stock lane.val article pack count stateCode confidenceCode) chars s → sender ≤ 60 →
    stockState stateCode = some state → confidenceOf confidenceCode = some confidence → s.holdsArticle article = true →
      let entry : PeerEntry :=
        ⟨sender, lane, article, if pack = 0 then 1 else pack, count, state, confidence, at' e s, .fresh⟩
      ∃ t, exec (.stockReceived e chars) s = .next t
        ∧ (∀ old, findPeer sender lane s.peers = some old → t.peers = overwritePeer entry s.peers
          ∧ (old ≠ { entry with arrival := old.arrival } → NoticeTaken e (some old) (some entry) s t)
          ∧ (old = { entry with arrival := old.arrival } → t.groups = s.groups))
        ∧ (findPeer sender lane s.peers = none → s.peers.length < 48 →
          t.peers = insertPeer entry s.peers ∧ NoticeTaken e none (some entry) s t)
        ∧ (findPeer sender lane s.peers = none → 48 ≤ s.peers.length → PeersSound s → ∀ old ∈ s.peers, old.age = .stale →
          (∀ x ∈ s.peers, x.age = .stale → x.arrival.notAfter old.arrival = false ∧ old.arrival.notAfter x.arrival = true
            ∨ x.arrival = old.arrival ∧ old.sender * 4 + old.lane.val ≤ x.sender * 4 + x.lane.val) →
          t.peers = insertPeer entry (removePeer old.sender old.lane s.peers) ∧ ReplacementTaken e old entry s t)
        ∧ (findPeer sender lane s.peers = none → 48 ≤ s.peers.length → (∀ x ∈ s.peers, x.age = .fresh) →
          t.peers = s.peers ∧ t.groups = s.groups
            ∧ t.station.counters.tableFullDrops = min (s.station.counters.tableFullDrops + 1) 65535)
        ∧ t.engine = s.engine ∧ t.shock = s.shock ∧ ∀ l, (t.lane l).counter = (s.lane l).counter

/-- A kept SURVEY starts the delay of each named lane that has none running and changes no other delay; in a station whose number is a
multiple of 16 the named lanes report at once, and no delay changes. -/
def Obligations.SurveyStartsTheDelays : Prop :=
  ∀ (e sender : Nat) (pairs : List (Word × Word)) (chars : List Byte) (s : State), Arrives sender (.survey pairs) chars s →
    sender ≤ 60 → s.surveyNames pairs = true →
      let named (l : LaneNo) : Prop := (s.lane l).service.state ≠ .off ∧ ∃ p ∈ pairs, (s.laneSettings l).article &&& p.2 = p.1
      let others (t : State) (l : LaneNo) : Lane :=
        { s.lane l with service := { (s.lane l).service with
            surveyDelay := (t.lane l).service.surveyDelay, reportDue := (t.lane l).service.reportDue } }
      ∃ t, exec (.surveyReceived e chars) s = .next t
        ∧ (∀ l, t.lane l = others t l
          ∧ (¬ named l → t.lane l = s.lane l)
          ∧ (s.number % 16 ≠ 0 → named l → (t.lane l).service.reportDue = (s.lane l).service.reportDue
            ∧ (t.lane l).service.surveyDelay
              = some ((s.lane l).service.surveyDelay.getD ((at' e s).addMs (s.number % 16 * 50))))
          ∧ (s.number % 16 = 0 → named l → Reported s t l
            ∧ (t.lane l).service.surveyDelay = (s.lane l).service.surveyDelay))
        ∧ t.peers = s.peers ∧ t.groups = s.groups ∧ t.shock = s.shock ∧ t.engine = s.engine

/-- A kept DISTURB begins or extends the holdoff to its candidate end, and an earlier candidate changes nothing. -/
def Obligations.DisturbHoldsOff : Prop :=
  ∀ (e sender hold : Nat) (zone : Byte) (chars : List Byte) (s : State), Arrives sender (.disturb zone hold) chars s →
    sender ≤ 60 → s.shock.applies zone = true →
      let candidate := (at' e s).addMs (max 1 (min hold 100) * 100)
      ∃ t, exec (.disturbReceived e chars) s = .next t
        ∧ (s.shock.holdoff = none ∨ (∃ ends, s.shock.holdoff = some ends ∧ ends.before candidate = true) →
          t.shock = { s.shock with holdoff := some candidate }
            ∧ ∀ l, t.lane l = { s.lane l with weighing := { (s.lane l).weighing with motion := .moving, window := [] } })
        ∧ (∀ ends, s.shock.holdoff = some ends → ends.before candidate = false → t.shock = s.shock ∧ t.lanes = s.lanes)
        ∧ t.peers = s.peers ∧ t.groups = s.groups ∧ t.engine = s.engine

/-- A kept RAISE makes a CLEAR or PENDING record follow, renews a follower, is ignored in TAKEN and SUSPENDED, and in RAISED makes the
station yield to a lower sender, which withdraws its own RAISE, and answer a higher one, which offers a RAISE with the group's figures. -/
def Obligations.RaiseHeardFollowsYieldsOrAnswers : Prop :=
  ∀ (e sender levelCode qualityCode aggregate reorder : Nat) (key mask : Word) (level : Shortage) (g : GroupNo) (gr : Group)
    (chars : List Byte) (s : State),
    Arrives sender (.raise key mask levelCode qualityCode aggregate reorder) chars s → sender ≤ 60 →
    s.findGroup key mask = some g → s.group g = some gr → shortageOf levelCode = some level → qualityCode ≤ 2 →
      let watchEnds := (at' e s).addMs (3 * (s.settings.repeatUnits * 10000))
      let follows (raiser : Nat) (a : Alert) : Prop :=
        a.state = .following ∧ a.raiser = some raiser ∧ a.level = some level ∧ a.watch = some watchEnds
          ∧ a.deference = none ∧ a.repeatTimer = none ∧ a.raiseSent = false
      ∃ t after, exec (.raiseReceived e chars) s = .next t ∧ t.group g = some after ∧ after.record = gr.record
        ∧ (gr.alert.state = .clear ∨ gr.alert.state = .pending → follows sender after.alert)
        ∧ (gr.alert.state = .following → follows (lowerRaiser gr.alert.raiser sender) after.alert)
        ∧ (gr.alert.state = .taken ∨ gr.alert.state = .suspended → after.alert = gr.alert)
        ∧ (gr.alert.state = .raised → sender < s.number → follows sender after.alert ∧ RaiseWithdrawn g t.queue)
        ∧ (gr.alert.state = .raised → s.number < sender → after.alert.state = .raised
          ∧ after.alert.level = gr.alert.level ∧ after.alert.raiseSent = gr.alert.raiseSent
          ∧ after.alert.repeatTimer = some ((at' e s).addMs (s.settings.repeatUnits * 10000))
          ∧ (HasPlace (.alert g) s.queue → RaiseWaits g gr.record gr.alert.level t.queue))
        ∧ t.peers = s.peers ∧ t.shock = s.shock ∧ t.engine = s.engine

/-- A CLEAR from the recorded raiser ends the following: the record is CLEAR, or PENDING where the own view finds the group short
outside JOINING. Any other CLEAR is ignored. -/
def Obligations.ClearHeardEndsTheFollowing : Prop :=
  ∀ (e sender : Nat) (key mask : Word) (g : GroupNo) (gr : Group) (chars : List Byte) (s : State),
    Arrives sender (.clear key mask) chars s → sender ≤ 60 → s.findGroup key mask = some g → s.group g = some gr →
      ∃ t after, exec (.clearReceived e chars) s = .next t ∧ t.group g = some after ∧ after.record = gr.record
        ∧ (gr.alert.state = .following → gr.alert.raiser = some sender →
          (gr.record.condition = false ∨ s.joining = true → after.alert.state = .clear)
            ∧ (gr.record.condition = true → s.joining = false → Defers e gr.record s after.alert)
            ∧ after.alert.raiser = none ∧ after.alert.level = none ∧ after.alert.watch = none)
        ∧ (gr.alert.state ≠ .following ∨ gr.alert.raiser ≠ some sender → after = gr)
        ∧ t.lanes = s.lanes ∧ t.peers = s.peers ∧ t.shock = s.shock ∧ t.engine = s.engine

/-- A TAKE with a duration takes the alert, which withdraws a RAISE of the group, or renews the take; in CLEAR and SUSPENDED it is refused
as a late take. -/
def Obligations.TakeHeardTakesTheAlert : Prop :=
  ∀ (e sender minutes : Nat) (key mask : Word) (terminal : Byte) (g : GroupNo) (gr : Group) (chars : List Byte) (s : State),
    Arrives sender (.take key mask terminal minutes) chars s → 61 ≤ sender → sender ≤ 63 → minutes ≠ 0 →
    s.findGroup key mask = some g → s.group g = some gr →
      let taken (a : Alert) : Prop :=
        a.state = .taken ∧ a.takenUntil = some ((at' e s).addMs (minutes * 60000)) ∧ a.terminal = terminal
          ∧ a.level = gr.alert.level
      ∃ t after, exec (.take e chars) s = .next t ∧ t.group g = some after ∧ after.record = gr.record
        ∧ (gr.alert.state = .pending ∨ gr.alert.state = .raised ∨ gr.alert.state = .following →
          taken after.alert ∧ after.alert.deference = none ∧ after.alert.repeatTimer = none ∧ after.alert.watch = none
            ∧ after.alert.raiser = none ∧ after.alert.raiseSent = false ∧ RaiseWithdrawn g t.queue)
        ∧ (gr.alert.state = .taken → taken after.alert)
        ∧ (gr.alert.state = .clear ∨ gr.alert.state = .suspended → after = gr
          ∧ t.station.counters.refusedGatewayCommands = min (s.station.counters.refusedGatewayCommands + 1) 65535)
        ∧ t.peers = s.peers ∧ t.shock = s.shock ∧ t.engine = s.engine

/-- A release by the taker terminal ends a take; any other release is refused and counted. -/
def Obligations.ReleaseEndsTheTake : Prop :=
  ∀ (e sender : Nat) (key mask : Word) (terminal : Byte) (g : GroupNo) (gr : Group) (chars : List Byte) (s : State),
    Arrives sender (.take key mask terminal 0) chars s → 61 ≤ sender → sender ≤ 63 →
    s.findGroup key mask = some g → s.group g = some gr →
      ∃ t after, exec (.takeRelease e chars) s = .next t ∧ t.group g = some after ∧ after.record = gr.record
        ∧ (gr.alert.state = .taken → gr.alert.terminal = terminal →
          after.alert.takenUntil = none ∧ after.alert.terminal = 0 ∧ after.alert.level = none
            ∧ (gr.record.condition = true → s.joining = false → Defers e gr.record s after.alert)
            ∧ (gr.record.condition = false ∨ s.joining = true → after.alert.state = .clear))
        ∧ (gr.alert.state ≠ .taken ∨ gr.alert.terminal ≠ terminal → after = gr
          ∧ t.station.counters.refusedGatewayCommands = min (s.station.counters.refusedGatewayCommands + 1) 65535)
        ∧ t.lanes = s.lanes ∧ unmarked t.queue = unmarked s.queue ∧ t.peers = s.peers ∧ t.shock = s.shock

/-- A QUERY for the own number puts one WAITING STATUS into the queue, and changes nothing where one waits already. In a full queue the newest
WAITING entry of class 3 gives way: a lane's report is due again, a SURVEY counts as discarded; without one the offer is refused.
Beside it what the queue does with every offer, which coalesces, is appended, or is refused where no class is worse, and with a withdrawal.
A new entry's mark that its not-before time has passed is the model's own (log 14). -/
def Obligations.QueryOffersAStatus : Prop :=
  (∀ (e sender : Nat) (chars : List Byte) (s : State), Arrives sender (.query s.number) chars s → 61 ≤ sender → sender ≤ 63 →
    ∃ t, exec (.query e chars) s = .next t
      ∧ (s.queue.any (fun x => x.waitsFor .status) = true → unmarked t.queue = unmarked s.queue ∧ t.lanes = s.lanes)
      ∧ (s.queue.any (fun x => x.waitsFor .status) = false → s.queue.length < 8 →
        unmarked t.queue = unmarked (s.queue ++ [Entry.new .status (at' e s)]) ∧ t.lanes = s.lanes)
      ∧ (s.queue.any (fun x => x.waitsFor .status) = false → s.queue.length = 8 → QueueSound s →
        ∀ older out newer, s.queue = older ++ out :: newer → out.waiting = true → out.body.priority = 3 →
        (∀ x ∈ newer, x.waiting = true → x.body.priority ≠ 3) →
          unmarked t.queue = unmarked (older ++ newer ++ [Entry.new .status (at' e s)])
            ∧ t.station.counters.queueEvictions = min (s.station.counters.queueEvictions + 1) 65535
            ∧ (∀ l, t.lane l = if out.body.identity = .stock l then
                { s.lane l with service := { (s.lane l).service with reportDue := true } } else s.lane l)
            ∧ (out.body.identity = .survey → ∀ entered, s.station.joinTimer = some ⟨entered, .offered⟩ →
              t.station.joinTimer = some ⟨entered, .settled (at' e s)⟩))
      ∧ (s.queue.any (fun x => x.waitsFor .status) = false → 8 ≤ s.queue.length →
        (∀ x ∈ s.queue, x.waiting = true → x.body.priority ≠ 3) →
          unmarked t.queue = unmarked s.queue ∧ t.lanes = s.lanes
            ∧ t.station.counters.queueRefusals = min (s.station.counters.queueRefusals + 1) 65535)
      ∧ t.peers = s.peers ∧ t.groups = s.groups ∧ t.shock = s.shock ∧ t.engine = s.engine)
  ∧ ∀ (b : Body) (s : State),
    let same (x : Entry) : Prop := x.waiting = true ∧ x.body.identity = b.identity
    ((∃ x ∈ s.queue, same x) →
      ∃ q, offer b s = { s with queue := q } ∧ offerOrRefuse b s = (true, { s with queue := q }) ∧ q.length = s.queue.length
        ∧ ∀ (i : Nat) (x : Entry), s.queue[i]? = some x → ∃ y, q[i]? = some y ∧ (¬ same x → y = x)
          ∧ (same x → b = .status ∨ (∃ pairs, b = .survey pairs) → y = x)
          ∧ (same x → (∃ zone hold, b = .disturb zone hold) → y = { x with body := b, enqueued := s.now, busySeen := false })
          ∧ (same x → b ≠ .status → (∀ pairs, b ≠ .survey pairs) → (∀ zone hold, b ≠ .disturb zone hold) → y = { x with body := b }))
    ∧ ((∀ x ∈ s.queue, ¬ same x) → s.queue.length < 8 →
      let entry : Entry := ⟨b, s.now, 0, s.now, true, .waiting, false, false, false⟩
      offer b s = { s with queue := s.queue ++ [entry] } ∧ offerOrRefuse b s = (true, { s with queue := s.queue ++ [entry] }))
    ∧ ((∀ x ∈ s.queue, ¬ same x) → 8 ≤ s.queue.length → (∀ x ∈ s.queue, x.waiting = true → x.body.priority ≤ b.priority) →
      offer b s = s.count .queueRefusals 1 ∧ offerOrRefuse b s = (false, s.count .queueRefusals 1))
    ∧ ∀ g, RaiseWithdrawn g (withdrawRaise g s).queue
      ∧ ((∀ x ∈ s.queue, x.body.isRaiseOf g = true → x.waiting = false) →
        let marked := s.queue.map fun x =>
          if x.body.isRaiseOf g = true ∧ x.waiting = false then { x with withdraw := true } else x
        withdrawRaise g s = { s with queue := marked })
      ∧ (∀ x ∈ s.queue, x.body.isRaiseOf g = false → x.body.identity ≠ .stock 0 → x.body.identity ≠ .stock 1 →
        x.body.identity ≠ .stock 2 → x.body.identity ≠ .stock 3 → x ∈ (withdrawRaise g s).queue)

/-! ## Own attempts -/

/-- The best eligible entry, of the least class the earliest, begins on an ACTIVE line that has been idle for 24 + 8c bit times: it goes ON
LINE, its frame is formed, the receiver enters READBACK, and the first attempt of a marked entry counts a deferral. A STATUS carries and
captures the counters, flags and code as they stand, with this deferral counted or not (the order is free, log 6). It begins at the first such
moment: a command that is on time (log 4) does not pass over it. The marks that the entry's not-before time has passed (log 14) and that its
first attempt has been made (log 19) are the model's own. -/
def Obligations.AttemptBeginsOnAnIdleLine : Prop :=
  ∀ (e : Nat) (since : Time) (x : Entry) (earlier later : List Entry) (s : State), Awake s →
    s.queue = earlier ++ x :: later → x.waiting = true → x.passed = true →
    (∀ y ∈ earlier, y.waiting = true → y.passed = true → x.body.priority < y.body.priority) →
    (∀ y ∈ later, y.waiting = true → y.passed = true → x.body.priority ≤ y.body.priority) →
    s.line.state = .active → s.inBrownOut = false → s.line.attempt = none → validNumber s.station.number = true →
    (s.station.phase ≠ .configFault ∨ x.body = .status) → s.line.use = .idle since →
    let gapEnds := since.addUs (64 * x.body.priority)
    (∀ i, Punctual i s →
      (at' (elapsedOf i) s).notAfter (if gapEnds.notAfter s.now then s.now else gapEnds) = true)
    ∧ (gapEnds.notAfter (at' e s) = true →
      ∃ t frame, exec (.attemptBegin e) s = .next t
        ∧ t.queue = earlier ++ { x with status := .onLine, tried := true } :: later
        ∧ t.line.attempt = some ⟨.sending, frame, at' e s, (at' e s).addUs (80 * frame.length)⟩
        ∧ (x.body ≠ .status → frame = frameChars s.number x.body.kind x.body.bytes)
        ∧ (x.body = .status → t.station.notes = CauseNotes.clear
          ∧ ∃ u, (u = s ∨ u = countDeferral x s) ∧ frame = frameChars s.number .status (statusBytes u)
            ∧ t.station.capture = some ⟨u.station.counters, u.station.flags, u.lanes.map fun lane => lane.counter.drift, u.line.lastError⟩)
        ∧ t.line.receiver = .readback ∧ t.line.use = .busyOwn ∧ t.line.tecCount = s.line.tecCount
        ∧ t.station.counters.deferrals
          = (if x.tried = false ∧ x.busySeen = true then min (s.station.counters.deferrals + 1) 65535
            else s.station.counters.deferrals)
        ∧ t.lanes = s.lanes ∧ t.peers = s.peers ∧ t.groups = s.groups ∧ t.shock = s.shock ∧ t.engine = s.engine)

/-- A sent frame lowers TEC, counts the entry's collisions, takes it off the queue and ends the attempt. A RAISE of a RAISED group sets
raise-sent, one of a group that is CLEAR by now offers a CLEAR, and a SURVEY times the end of JOINING. -/
def Obligations.SentFrameLeavesTheQueue : Prop :=
  ∀ (e : Nat) (frame : List Byte) (began ends : Time) (x : Entry) (s : State), Awake s → LineCountsSound s →
    s.line.attempt = some ⟨.sending, frame, began, ends⟩ → ends.notAfter (at' e s) = true →
    onLineEntry s.queue = some x →
      ∃ t, exec (.frameSent e) s = .next t
        ∧ t.line.attempt = none ∧ t.line.receiver = .waitIdle ∧ t.line.tecCount = s.line.tecCount - 1
        ∧ t.line.recCount = s.line.recCount ∧ onLineEntry t.queue = none
        ∧ (x.body ≠ .status → t.station.counters.singleCollisions
            = (if x.attempts = 1 then min (s.station.counters.singleCollisions + 1) 65535
              else s.station.counters.singleCollisions)
          ∧ t.station.counters.multipleCollisions
            = (if 2 ≤ x.attempts ∧ x.attempts ≤ 7 then min (s.station.counters.multipleCollisions + 1) 65535
              else s.station.counters.multipleCollisions))
        ∧ (∀ g gr, x.body.isRaiseOf g = true → s.group g = some gr → gr.alert.state = .raised →
          ∃ after, t.group g = some after ∧ after.alert = { gr.alert with raiseSent := true } ∧ after.record = gr.record)
        ∧ (∀ g gr, s.group g = some gr → x.body.isRaiseOf g = false ∨ gr.alert.state ≠ .raised → t.group g = some gr)
        ∧ (∀ g gr, x.body.isRaiseOf g = true → s.group g = some gr → gr.alert.state = .clear → s.queue.length ≤ 8 →
          ∃ y ∈ t.queue, y.waiting = true ∧ y.body = .clear g gr.record.key gr.record.mask)
        ∧ (x.body.identity = .survey → SurveySettles e s t)
        ∧ t.engine = s.engine ∧ t.shock = s.shock ∧ t.peers = s.peers

/-- A sent STATUS takes off what its attempt captured: each counter loses its captured value, and each flag captured set, and the last
line error code, are cleared where their cause note is still clear. Its own collisions are counted before the two collision counters lose what
the attempt captured: that order is the model's choice (log 30). -/
def Obligations.SentStatusReducesWhatItCarried : Prop :=
  ∀ (e : Nat) (frame : List Byte) (began ends : Time) (x : Entry) (c : Capture) (s : State), Awake s → LineCountsSound s →
    s.line.attempt = some ⟨.sending, frame, began, ends⟩ → ends.notAfter (at' e s) = true →
    onLineEntry s.queue = some x → x.body = .status → s.station.capture = some c →
      let cleared (flag captured note : Bool) : Bool := flag && !(captured && !note)
      ∃ t, exec (.frameSent e) s = .next t
        ∧ apartFromCollisions (apartFromQueue t.station.counters)
          = apartFromCollisions (apartFromQueue (s.station.counters.less c.counters))
        ∧ t.station.counters.singleCollisions
          = (if x.attempts = 1 then min (s.station.counters.singleCollisions + 1) 65535
            else s.station.counters.singleCollisions) - c.counters.singleCollisions
        ∧ t.station.counters.multipleCollisions
          = (if 2 ≤ x.attempts ∧ x.attempts ≤ 7 then min (s.station.counters.multipleCollisions + 1) 65535
            else s.station.counters.multipleCollisions) - c.counters.multipleCollisions
        ∧ t.station.flags.configAdjusted
          = cleared s.station.flags.configAdjusted c.flags.configAdjusted s.station.notes.flags.configAdjusted
        ∧ t.station.flags.sensorBusFault
          = cleared s.station.flags.sensorBusFault c.flags.sensorBusFault s.station.notes.flags.sensorBusFault
        ∧ t.station.flags.numberClash
          = cleared s.station.flags.numberClash c.flags.numberClash s.station.notes.flags.numberClash
        ∧ t.station.flags.lineStuck = cleared s.station.flags.lineStuck c.flags.lineStuck s.station.notes.flags.lineStuck
        ∧ t.station.flags.listenOnlyEntered
          = cleared s.station.flags.listenOnlyEntered c.flags.listenOnlyEntered s.station.notes.flags.listenOnlyEntered
        ∧ (∀ l, (t.lane l).counter.drift
          = cleared (s.lane l).counter.drift (c.drift.get l) (s.station.notes.drift.get l))
        ∧ t.line.lastError
          = (if c.errorCode ≠ .none ∧ s.station.notes.errorCode = false then .none else s.line.lastError)

/-- A collision turns the attempt into a jam of 16 bit times, and at its end an entry with fewer than 8 collisions backs off: a random r
of 0 to 2^min(n, 6) − 1 times 64 bit times after the end of the jam. An entry whose withdraw mark is set, of whose identity another waits,
or that is a DISTURB past its hold (log 13) is removed instead, with no counter of its own. The mark that the not-before time has passed is
the model's own (log 14). -/
def Obligations.CollisionJamsAndBacksOff : Prop :=
  ∀ (e : Nat) (frame : List Byte) (began ends : Time) (s : State), Awake s →
    (s.line.attempt = some ⟨.sending, frame, began, ends⟩ → (at' e s).notAfter ends = true →
      exec (.collision e) s
        = .next (keepUp { passTime e s with
            line := { s.line with attempt := some ⟨.jamming, frame, at' e s, (at' e s).addUs 128⟩ } }))
    ∧ (∀ x : Entry, s.line.attempt = some ⟨.jamming, frame, began, ends⟩ → ends.notAfter (at' e s) = true →
      onLineEntry s.queue = some x → x.attempts < 7 → MayWait (at' e s) x s.queue →
        ∃ t r, exec (.jamEnd e) s = .next t ∧ r < 2 ^ min (x.attempts + 1) 6
          ∧ unmarked t.queue = unmarked (updateOnLine (fun o => { o with
              attempts := x.attempts + 1
              notBefore := ends.addUs (r * 512)
              passed := (ends.addUs (r * 512)).notAfter (at' e s)
              status := .waiting }) s.queue)
          ∧ t.line.attempt = none ∧ t.line.receiver = .waitIdle ∧ t.line.tecCount = s.line.tecCount
          ∧ t.station = { s.station with clock := at' e s } ∧ t.lanes = s.lanes ∧ t.peers = s.peers ∧ t.groups = s.groups)
    ∧ (∀ x : Entry, s.line.attempt = some ⟨.jamming, frame, began, ends⟩ → ends.notAfter (at' e s) = true →
      onLineEntry s.queue = some x → x.attempts < 7 → ¬ MayWait (at' e s) x s.queue →
        ∃ t, exec (.jamEnd e) s = .next t ∧ onLineEntry t.queue = none
          ∧ (∀ y ∈ s.queue, y.waiting = true → ∃ z ∈ t.queue, z.waiting = true ∧ z.body.identity = y.body.identity
            ∧ z.enqueued = y.enqueued ∧ z.attempts = y.attempts ∧ z.notBefore = y.notBefore)
          ∧ t.line.attempt = none ∧ t.line.receiver = .waitIdle ∧ t.line.tecCount = s.line.tecCount
          ∧ apartFromQueue t.station.counters = apartFromQueue s.station.counters
          ∧ t.station.flags = s.station.flags ∧ t.peers = s.peers ∧ t.groups = s.groups)

/-- At its 8th collision the entry is discarded: the counter increases, TEC increases by 8, which can make the line LISTEN-ONLY, and the entry
leaves the queue. A lane's report is due again, a SURVEY times the end of JOINING, and a RAISED group none of whose RAISEs was sent
defers again, or is CLEAR where the condition is gone, with its RAISE withdrawn. -/
def Obligations.EighthCollisionDiscards : Prop :=
  ∀ (e : Nat) (frame : List Byte) (began ends : Time) (x : Entry) (s : State), Awake s →
    s.line.attempt = some ⟨.jamming, frame, began, ends⟩ → ends.notAfter (at' e s) = true →
    onLineEntry s.queue = some x → x.attempts = 7 →
      ∃ t, exec (.jamEnd e) s = .next t
        ∧ t.station.counters.excessiveCollisionDiscards = min (s.station.counters.excessiveCollisionDiscards + 1) 65535
        ∧ t.line.tecCount = min (s.line.tecCount + 8) 255 ∧ t.line.recCount = s.line.recCount
        ∧ t.line.attempt = none ∧ t.line.receiver = .waitIdle ∧ onLineEntry t.queue = none
        ∧ (∀ lane article pack count state confidence, x.body = .stock lane article pack count state confidence →
          (t.lane lane).service.reportDue = true ∨ t.queue.any (fun o => o.waitsFor (.stock lane)) = true)
        ∧ (x.body.identity = .survey → SurveySettles e s t)
        ∧ (LineCountsSound s → ∀ g gr, x.body.isRaiseOf g = true → s.group g = some gr →
          (s.line.state = .active → 120 ≤ s.line.tecCount → t.line.state = .listenOnly
            ∧ (gr.alert.state ≠ .raised → t.group g = some gr)
            ∧ (gr.alert.state = .raised → RaiseWithdrawn g t.queue
              ∧ ∃ after, t.group g = some after ∧ after.alert.state ≠ .raised))
          ∧ (s.line.state = .listenOnly ∨ s.line.tecCount < 120 →
            (gr.alert.state ≠ .raised ∨ gr.alert.raiseSent = true → t.group g = some gr)
              ∧ (gr.alert.state = .raised → gr.alert.raiseSent = false → RaiseWithdrawn g t.queue ∧ ∃ after, t.group g = some after
                ∧ after.record = gr.record ∧ after.alert.level = none ∧ after.alert.repeatTimer = none
                ∧ (gr.record.condition = true → Defers e gr.record s after.alert)
                ∧ (gr.record.condition = false → after.alert.state = .clear))))
        ∧ ((∀ g, x.body.isRaiseOf g = false) → s.line.state = .active → 120 ≤ s.line.tecCount → EntersListenOnly e s t)
        ∧ t.peers = s.peers ∧ t.shock = s.shock ∧ t.engine = s.engine

/-- A passed not-before time makes a WAITING entry eligible, and a WAITING DISTURB past its hold leaves the queue. The mark that the time has
passed is the model's own (log 14); that the hold is exceeded 1 ms after it, by the reading of R123, is its reading (log 13). -/
def Obligations.QueueTimesPass : Prop :=
  ∀ (e : Nat) (s : State), Awake s →
    (∃ t, exec (.notBeforePassed e) s = .next t
      ∧ unmarked t.queue = (unmarked s.queue).map (fun x =>
        if x.waiting = true ∧ x.notBefore.notAfter (at' e s) = true then { x with passed := true } else x)
      ∧ t.lanes = s.lanes ∧ t.peers = s.peers ∧ t.groups = s.groups)
    ∧ (∃ t, exec (.disturbExpiry e) s = .next t
      ∧ (∀ x ∈ t.queue, x.waiting = true → ¬ Outlived (at' e s) x)
      ∧ (∀ x ∈ s.queue, x.waiting = false ∨ ¬ Outlived (at' e s) x →
        ∃ y ∈ t.queue, y.enqueued = x.enqueued ∧ y.body.identity = x.body.identity ∧ y.status = x.status)
      ∧ t.groups = s.groups ∧ t.peers = s.peers)

/-- Each 50 ms of stuck line adds 8 to TEC and latches line stuck, and a TEC that reaches 128 makes the line LISTEN-ONLY; each second in
LISTEN-ONLY takes 1 off TEC. -/
def Obligations.LineTimersMoveTec : Prop :=
  ∀ (e : Nat) (s : State), Awake s → LineCountsSound s →
    (∀ since, s.line.stuckSince = some since → (since.addMs 50).notAfter (at' e s) = true →
      ∃ t, exec (.stuckMeasurementExpiry e) s = .next t
        ∧ t.line.tecCount = min (s.line.tecCount + 8) 255 ∧ t.line.recCount = s.line.recCount
        ∧ t.station.flags.lineStuck = true ∧ t.station.notes.flags.lineStuck = true
        ∧ (t.line.stuckSince = some (since.addMs 50) ∨ t.stuckConditions = false)
        ∧ (120 ≤ s.line.tecCount → t.line.state = .listenOnly)
        ∧ (s.line.state = .active → 120 ≤ s.line.tecCount → EntersListenOnly e s t)
        ∧ (s.line.state = .listenOnly ∨ s.line.tecCount < 120 → t.groups = s.groups) ∧ t.peers = s.peers ∧ t.engine = s.engine)
    ∧ (∀ expiry, s.line.secondTimer = some expiry → expiry.notAfter (at' e s) = true →
      ∃ t, exec (.listenOnlySecondTimer e) s = .next t
        ∧ t.line.tecCount = s.line.tecCount - 1 ∧ t.line.recCount = s.line.recCount
        ∧ (s.line.tecCount ≤ 96 ∧ s.line.recCount ≤ 95 → t.line.state = .active ∧ t.line.secondTimer = none)
        ∧ (96 < s.line.tecCount ∨ 95 < s.line.recCount →
          t.line.state = .listenOnly ∧ t.line.secondTimer = some (expiry.addMs 1000))
        ∧ t.lanes = s.lanes ∧ t.groups = s.groups ∧ t.peers = s.peers)

/-! ## The lanes -/

/-- A button input's change and its press after 20 ms, the end of the refusal flash, and the moving forward of an old pattern origin.
A command that is on time (log 4) passes over no moment at which an origin lies 2,000 ms in the past. -/
def Obligations.ButtonsFlashesAndOrigins : Prop :=
  ∀ (e : Nat) (l : LaneNo) (s : State), Awake s →
    let service (f : Service → Service) : Host.Outcome State Fault Refusal :=
      .next (keepUp { passTime e s with lanes := s.lanes.set l { s.lane l with service := f (s.lane l).service } })
    (∀ (c : Configuration) (high : Bool), s.station.config = some c → (s.lane l).service.buttonInput ≠ high →
      exec (.buttonInputChange e l high) s = service fun sv =>
        { sv with
          buttonInput := high
          debounce :=
            if (high = c.station.buttonActiveHigh.get l ↔ sv.button = .active) then none else some ((at' e s).addMs 20) })
    ∧ (due (s.lane l).service.debounce (at' e s) = true →
      (s.lane l).service.buttonInput = s.settings.buttonActiveHigh.get l → (s.lane l).service.button = .inactive →
        exec (.press e l) s = service fun sv =>
          { sv with
            button := .active
            debounce := none
            press := if sv.state = .off then sv.press else .running (at' e s) })
    ∧ ((s.lane l).service.flash = true → ((s.lane l).service.refuseOrigin.addMs 1500).notAfter (at' e s) = true →
      exec (.refusalFlashEnd e l) s = service fun sv => { sv with flash := false })
    ∧ (((s.lane l).service.refuseOrigin.addMs 2000).notAfter (at' e s) = true →
      exec (.patternOriginAdvance e (.refuse l)) s = service fun sv =>
        { sv with refuseOrigin := sv.refuseOrigin.addMs 2000 })
    ∧ (((s.lane l).service.holdBeatOrigin.addMs 2000).notAfter (at' e s) = true →
      exec (.patternOriginAdvance e (.holdBeat l)) s = service fun sv =>
        { sv with holdBeatOrigin := sv.holdBeatOrigin.addMs 2000 })
    ∧ (((s.lane l).service.faultBeatOrigin.addMs 2000).notAfter (at' e s) = true →
      exec (.patternOriginAdvance e (.faultBeat l)) s = service fun sv =>
        { sv with faultBeatOrigin := sv.faultBeatOrigin.addMs 2000 })
    ∧ (∀ g gr, s.group g = some gr → (gr.alert.origin.addMs 2000).notAfter (at' e s) = true →
      exec (.patternOriginAdvance e (.group g)) s
        = .next (keepUp { passTime e s with
            groups := s.groups.set g (some { gr with alert := { gr.alert with origin := gr.alert.origin.addMs 2000 } }) }))
    ∧ (∀ i, Punctual i s →
      let kept (origin : Time) : Prop := (at' (elapsedOf i) s).notAfter (origin.addMs 2000) = true
      kept (s.lane l).service.refuseOrigin ∧ kept (s.lane l).service.holdBeatOrigin ∧ kept (s.lane l).service.faultBeatOrigin
        ∧ ∀ g gr, s.group g = some gr → kept gr.alert.origin)

/-- A release ends a spent press without effect, and takes a running one as a short press: IN SERVICE to HELD, HELD to RESUMING, and
otherwise, as in brown-out, a refusal with the flash. A change of state makes the lane's report due and evaluates the groups of its
article. -/
def Obligations.ReleaseTakesAShortPress : Prop :=
  ∀ (e : Nat) (l : LaneNo) (s : State), Awake s → due (s.lane l).service.debounce (at' e s) = true →
    (s.lane l).service.buttonInput ≠ s.settings.buttonActiveHigh.get l → (s.lane l).service.button = .active →
      let sv := (s.lane l).service
      ∃ t, exec (.release e l) s = .next t
        ∧ (t.lane l).service.button = .inactive ∧ (t.lane l).service.press = .none
        ∧ (t.lane l).counter = (s.lane l).counter
        ∧ (sv.press = .spent ∨ sv.press = .none →
          (t.lane l).service.state = sv.state ∧ (t.lane l).service.flash = sv.flash)
        ∧ (∀ since, sv.press = .running since → sv.state = .inService → s.inBrownOut = false →
          (t.lane l).service.state = .held
            ∧ (t.lane l).service.holdTimer = some ((at' e s).addMs (s.settings.holdLimitMin * 60000))
            ∧ (t.lane l).service.holdBeatOrigin = at' e s ∧ (t.lane l).weighing = (s.lane l).weighing)
        ∧ (∀ since, sv.press = .running since → sv.state = .held → s.inBrownOut = false →
          (t.lane l).service.state = .resuming ∧ (t.lane l).service.holdTimer = none
            ∧ (t.lane l).service.holdBeatOrigin = sv.holdBeatOrigin
            ∧ (t.lane l).weighing = { (s.lane l).weighing with motion := .moving, filter := [], window := [] })
        ∧ (∀ since, sv.press = .running since → sv.state ≠ .off →
          (sv.state ≠ .inService ∧ sv.state ≠ .held ∨ s.inBrownOut = true) →
            (t.lane l).service.state = sv.state ∧ (t.lane l).service.flash = true
              ∧ (t.lane l).service.refuseOrigin = at' e s)
        ∧ LanesHandOn e s t

/-- A long press at its 3 s mark re-zeroes a SETTLED lane IN SERVICE whose L − T lies within Z, which reports in any case, and is otherwise
refused with the flash. A change of count or confidence evaluates the groups of the lane's article. -/
def Obligations.LongPressReZeroesOrIsRefused : Prop :=
  ∀ (e : Nat) (l : LaneNo) (since : Time) (s : State), Awake s → (s.lane l).service.press = .running since →
    (since.addMs 3000).notAfter (at' e s) = true →
      let sv := (s.lane l).service
      let tare : Int := (s.laneSettings l).tare
      let allowed := ∃ level, (s.lane l).weighing.motion = .settled level
        ∧ (level - tare).natAbs ≤ (s.laneSettings l).zeroLimit
      ∃ t, exec (.longPress e l) s = .next t
        ∧ (t.lane l).service.press = .spent ∧ (t.lane l).service.state = sv.state
        ∧ (t.lane l).weighing = (s.lane l).weighing
        ∧ (∀ level, sv.state = .inService → s.inBrownOut = false →
          (s.lane l).weighing.motion = .settled level → (level - tare).natAbs ≤ (s.laneSettings l).zeroLimit →
            (t.lane l).counter = { (s.lane l).counter with
              offset := level - tare, count := 0, confidence := .sure, overload := false, underload := false }
              ∧ Reported s t l)
        ∧ (sv.state ≠ .off → (sv.state ≠ .inService ∨ s.inBrownOut = true ∨ ¬ allowed) →
          (t.lane l).counter = (s.lane l).counter ∧ (t.lane l).service.flash = true
            ∧ (t.lane l).service.refuseOrigin = at' e s)
        ∧ LanesHandOn e s t

/-- The hold limit's expiry moves a HELD lane to RESUMING: its windows are emptied, its count and confidence kept. The
change makes its report due and evaluates the groups of its article. -/
def Obligations.HoldLimitEndsTheHold : Prop :=
  ∀ (e : Nat) (l : LaneNo) (s : State), Awake s → (s.lane l).service.state = .held →
    due (s.lane l).service.holdTimer (at' e s) = true →
      ∃ t, exec (.holdTimerExpiry e l) s = .next t
        ∧ (t.lane l).service.state = .resuming ∧ (t.lane l).service.holdTimer = none
        ∧ (t.lane l).service.holdBeatOrigin = (s.lane l).service.holdBeatOrigin
        ∧ (t.lane l).weighing = { (s.lane l).weighing with motion := .moving, filter := [], window := [] }
        ∧ (t.lane l).counter = (s.lane l).counter
        ∧ (∀ m, m ≠ l → (t.lane m).counter = (s.lane m).counter ∧ (t.lane m).weighing = (s.lane m).weighing
          ∧ (t.lane m).service.state = (s.lane m).service.state)
        ∧ LanesHandOn e s t
        ∧ t.engine = s.engine ∧ t.shock = s.shock ∧ t.peers = s.peers

/-- The report timer makes every lane's report due and the survey delay one lane's: the flag stands, or the report waits in the queue. -/
def Obligations.ReportsFallDue : Prop :=
  ∀ (e : Nat) (s : State), Awake s →
    (∀ expiry, s.reportTimer = some expiry → expiry.notAfter (at' e s) = true →
      ∃ t, exec (.reportTimerExpiry e) s = .next t
        ∧ t.reportTimer = some (expiry.addMs (s.settings.reportIntervalS * 1000)) ∧ (∀ l, Reported s t l)
        ∧ t.groups = s.groups ∧ t.peers = s.peers ∧ ∀ l, (t.lane l).counter = (s.lane l).counter)
    ∧ (∀ l, due (s.lane l).service.surveyDelay (at' e s) = true →
      ∃ t, exec (.surveyDelayEnd e l) s = .next t
        ∧ (t.lane l).service.surveyDelay = none ∧ Reported s t l
        ∧ t.groups = s.groups ∧ t.peers = s.peers ∧ ∀ m, (t.lane m).counter = (s.lane m).counter)

/-- The holdoff's end empties the filter and settle windows of every lane, and the send inhibit's end changes it alone. -/
def Obligations.HoldoffAndInhibitEnd : Prop :=
  ∀ (e : Nat) (s : State), Awake s →
    (due s.shock.holdoff (at' e s) = true →
      exec (.holdoffExpiry e) s
        = .next (keepUp { passTime e s with
            shock := { s.shock with holdoff := none }
            lanes := s.lanes.map fun lane =>
              { lane with weighing := { lane.weighing with motion := .moving, filter := [], window := [] } } }))
    ∧ (due s.shock.sendInhibit (at' e s) = true →
      exec (.sendInhibitExpiry e) s = .next (keepUp { passTime e s with shock := { s.shock with sendInhibit := none } }))

/-! ## The table, the groups and the alerts -/

/-- A FRESH entry older than the stale time becomes STALE, and an entry older than the forget time is removed. Either evaluates the groups
that match the entry, and the removal sets their membership-changed flags. -/
def Obligations.PeerEntriesAgeAndLeave : Prop :=
  ∀ (e sender : Nat) (lane : LaneNo) (x : PeerEntry) (s : State), Awake s → findPeer sender lane s.peers = some x →
    (x.age = .fresh → s.settings.reportIntervalS * 3000 < s.settings.forgetTimeMin * 60000 →
      (x.arrival.addMs (s.settings.reportIntervalS * 3000 + 1)).notAfter (at' e s) = true →
        ∃ t, exec (.entryAged e sender lane) s = .next t ∧ t.peers = overwritePeer { x with age := .stale } s.peers
          ∧ NoticeTaken e (some x) (some { x with age := .stale }) s t
          ∧ t.engine = s.engine ∧ t.shock = s.shock ∧ ∀ l, (t.lane l).counter = (s.lane l).counter)
    ∧ ((x.arrival.addMs (s.settings.forgetTimeMin * 60000 + 1)).notAfter (at' e s) = true →
      ∃ t, exec (.entryForgotten e sender lane) s = .next t ∧ t.peers = removePeer sender lane s.peers
        ∧ NoticeTaken e (some x) none s t
        ∧ t.engine = s.engine ∧ t.shock = s.shock ∧ ∀ l, (t.lane l).counter = (s.lane l).counter)

/-- The rate tick reaches every group: ρq is left as it stands where the update is skipped and otherwise replaced, the previous aggregate is
brought up to date, and the group is evaluated after it. -/
def Obligations.RateTickReachesEveryGroup : Prop :=
  ∀ (e : Nat) (tick : Time) (s : State), Awake s → s.rateTick = some tick → tick.notAfter (at' e s) = true →
    ∃ t, exec (.rateTick e) s = .next t ∧ t.rateTick = some (tick.addMs 60000)
      ∧ (∀ g gr, s.group g = some gr → ∃ after, t.group g = some after
        ∧ after.record.previousAggregate = gr.record.aggregate ∧ after.record.membershipChanged = false
        ∧ (gr.record.membershipChanged = true ∨ gr.record.quality = .indeterminate ∨ gr.alert.state = .suspended →
          after.record.rate = gr.record.rate)
        ∧ Evaluates e s t t.peers g ⟨{ gr.record with
            rate := after.record.rate, previousAggregate := gr.record.aggregate, membershipChanged := false }, gr.alert⟩ after
        ∧ (gr.record.membershipChanged = false → gr.record.quality ≠ .indeterminate → gr.alert.state ≠ .suspended →
          after.record.rate
            = min (gr.record.rate - gr.record.rate / 8 + 2 * min (gr.record.previousAggregate - gr.record.aggregate) 65535)
              16777215))
      ∧ t.peers = s.peers ∧ t.engine = s.engine ∧ ∀ l, (t.lane l).counter = (s.lane l).counter

/-- The deference's expiry clears, defers again with a new rank and jitter in LISTEN-ONLY, or raises; the repeat timer's expiry offers a
RAISE and runs anew. -/
def Obligations.DeferenceAndRepeatExpire : Prop :=
  ∀ (e : Nat) (g : GroupNo) (gr : Group) (s : State), Awake s → s.group g = some gr →
    let repeatEnds := some ((at' e s).addMs (s.settings.repeatUnits * 10000))
    let offered (level : Option Shortage) (t : State) : Prop :=
      HasPlace (.alert g) s.queue → RaiseWaits g gr.record level t.queue
    (gr.alert.state = .pending → due gr.alert.deference (at' e s) = true →
      ∃ t after, exec (.deferenceExpiry e g) s = .next t ∧ t.group g = some after ∧ after.record = gr.record
        ∧ (gr.record.condition = false → after.alert.state = .clear ∧ after.alert.deference = none)
        ∧ (gr.record.condition = true → s.line.state = .listenOnly → Defers e gr.record s after.alert)
        ∧ (gr.record.condition = true → s.line.state = .active → after.alert.state = .raised
          ∧ after.alert.level = gr.record.level.shortage ∧ after.alert.raiseSent = false
          ∧ after.alert.repeatTimer = repeatEnds ∧ after.alert.deference = none ∧ offered gr.record.level.shortage t)
        ∧ t.peers = s.peers ∧ t.engine = s.engine)
    ∧ (gr.alert.state = .raised → due gr.alert.repeatTimer (at' e s) = true →
      ∃ t after, exec (.repeatExpiry e g) s = .next t ∧ t.group g = some after ∧ after.record = gr.record
        ∧ after.alert = { gr.alert with repeatTimer := repeatEnds } ∧ offered gr.alert.level t
        ∧ t.peers = s.peers ∧ t.engine = s.engine)

/-- A follower's watch that expires, and a take that reaches its end, lead to PENDING where the condition holds outside JOINING, with the
rank from the table as it stands, and otherwise to CLEAR. -/
def Obligations.WatchAndTakeExpire : Prop :=
  ∀ (e : Nat) (g : GroupNo) (gr : Group) (s : State), Awake s → s.group g = some gr →
    let ended (t : State) : Prop := ∃ after, t.group g = some after ∧ after.record = gr.record
      ∧ after.alert.level = none ∧ after.alert.raiser = none ∧ after.alert.watch = none
      ∧ after.alert.takenUntil = none ∧ after.alert.terminal = 0
      ∧ (gr.record.condition = true → s.joining = false → Defers e gr.record s after.alert)
      ∧ (gr.record.condition = false ∨ s.joining = true → after.alert.state = .clear)
      ∧ t.lanes = s.lanes ∧ unmarked t.queue = unmarked s.queue ∧ t.peers = s.peers
    (gr.alert.state = .following → due gr.alert.watch (at' e s) = true →
      ∃ t, exec (.watchExpiry e g) s = .next t ∧ ended t)
    ∧ (gr.alert.state = .taken → due gr.alert.takenUntil (at' e s) = true →
      ∃ t, exec (.takenExpiry e g) s = .next t ∧ ended t)

/-! ## Joining -/

/-- At 3,000 ms of JOINING the SURVEY of the own groups is offered, or taken as discarded without groups or where a full queue refuses it;
JOINING ends 4,000 ms after its outcome or at 30,000 ms, and with it RUNNING begins. -/
def Obligations.JoiningOffersASurveyAndEnds : Prop :=
  ∀ (e : Nat) (j : JoinTimer) (s : State), Awake s → s.station.joinTimer = some j →
    (j.survey = .notOffered → (j.entered.addMs 3000).notAfter (at' e s) = true →
      ∃ t, exec (.joinSurveyOffer e) s = .next t ∧ t.station.phase = s.station.phase
        ∧ (s.groupPairs = [] → t.station.joinTimer = some ⟨j.entered, .settled (at' e s)⟩ ∧ unmarked t.queue = unmarked s.queue)
        ∧ (s.groupPairs ≠ [] → s.queue.length < 8 → s.queue.any (fun x => x.waitsFor .survey) = false →
          t.station.joinTimer = some ⟨j.entered, .offered⟩
            ∧ unmarked t.queue = unmarked (s.queue ++ [Entry.new (.survey s.groupPairs) (at' e s)]))
        ∧ (s.groupPairs ≠ [] → s.queue.any (fun x => x.waitsFor .survey) = true →
          t.station.joinTimer = some ⟨j.entered, .offered⟩ ∧ unmarked t.queue = unmarked s.queue)
        ∧ (s.groupPairs ≠ [] → 8 ≤ s.queue.length → s.queue.any (fun x => x.waitsFor .survey) = false →
          t.station.joinTimer = some ⟨j.entered, .settled (at' e s)⟩ ∧ unmarked t.queue = unmarked s.queue
            ∧ t.station.counters.queueRefusals = min (s.station.counters.queueRefusals + 1) 65535)
        ∧ t.lanes = s.lanes ∧ t.groups = s.groups ∧ t.peers = s.peers)
    ∧ ((∃ moment, j.survey = .settled moment ∧ (moment.addMs 4000).notAfter (at' e s) = true)
        ∨ (j.entered.addMs 30000).notAfter (at' e s) = true →
      ∃ t, exec (.joiningEnd e) s = .next t ∧ t.station.phase = .running ∧ t.station.joinTimer = none
        ∧ t.reportTimer = some ((at' e s).addMs
          (s.number * 97 % (s.settings.reportIntervalS * 1000) + s.settings.reportIntervalS * 1000))
        ∧ t.rateTick = some ((at' e s).addMs 60000)
        ∧ (∀ l, Reported s t l)
        ∧ (∀ g gr, s.group g = some gr → ∃ after, t.group g = some after ∧ after.record = gr.record
          ∧ (gr.alert.state = .clear → gr.record.condition = true → Defers e gr.record s after.alert)
          ∧ (gr.alert.state ≠ .clear ∨ gr.record.condition = false → after.alert = gr.alert))
        ∧ t.peers = s.peers ∧ t.engine = s.engine ∧ ∀ l, (t.lane l).counter = (s.lane l).counter)

/-! ## What the blocks compute -/

/-- A settlement is an overload, an underload or a count, in this order, from the net weight N = L − T − o. Its pick or put amount is the new
count less the old one, and none after UNKNOWN or for an overload. -/
def Obligations.SettlementIsJudgedInOrder : Prop :=
  ∀ (c : LaneSettings) (before : Counter) (level : Int) (isOver : Bool),
    let net : Int := level - c.tare - before.offset
    let after := (settlement c before level isOver).counter
    (isOver = true ∨ (c.capacityKg : Int) * 1000 < net →
      after = { before with overload := true, underload := false, confidence := .doubtful })
    ∧ (isOver = false → net ≤ (c.capacityKg : Int) * 1000 → net < -(c.band : Int) →
      after = { before with overload := false, underload := true, count := 0, confidence := .doubtful })
    ∧ (isOver = false → net ≤ (c.capacityKg : Int) * 1000 → -(c.band : Int) ≤ net →
      let nearest := (2 * net.toNat + c.unitWeight) / (2 * c.unitWeight)
      after.overload = false ∧ after.underload = false
        ∧ after.count = (if net < 0 then 0 else min nearest 65535)
        ∧ (before.count ≠ 0 ∨ after.count ≠ 0 ∨ net = 0 ∨ c.band < net.natAbs →
          after.confidence
            = (if (net < 0 ∨ nearest ≤ 65535)
                ∧ (net - after.count * c.unitWeight).natAbs ≤ c.band + after.count * c.tolerance then .sure else .doubtful))
        ∧ (before.count = 0 → net ≠ 0 → after.count = 0 → net.natAbs ≤ c.band →
          (before.offset + net).natAbs ≤ c.zeroLimit → after.offset = before.offset + net ∧ after.confidence = .sure)
        ∧ (before.count = 0 → net ≠ 0 → after.count = 0 → net.natAbs ≤ c.band →
          c.zeroLimit < (before.offset + net).natAbs →
            after.offset = before.offset ∧ after.drift = true ∧ after.confidence = .doubtful)
        ∧ (before.count ≠ 0 ∨ after.count ≠ 0 ∨ net = 0 ∨ c.band < net.natAbs →
          after.offset = before.offset ∧ after.drift = before.drift))
    ∧ (settlement c before level isOver).amount
      = (if before.confidence = .unknown ∨ isOver = true ∨ (c.capacityKg : Int) * 1000 < net then 0
        else (after.count : Int) - before.count)

/-- The channel weight is the nearest whole gram, clamped with OVER; a shock is a jump of more than K kilograms from a previous gross; the
filter keeps the F newest samples and gives their rounded mean once it holds F; and a MOVING lane settles on exactly S filtered values
that lie within B. -/
def Obligations.WeightShockAndSettling : Prop :=
  (∀ (c : Channel) (sample : Sample),
    ∃ w : Int, RoundsTo ((sample.raw - c.zero) * c.gain) 65536 w ∧ (channelWeight c sample).grams = max (-8388607) (min w 8388607)
      ∧ ((channelWeight c sample).isOver = true ↔ w < -8388607 ∨ 8388607 < w ∨ sample.isOver = true))
    ∧ (∀ (k : Nat) (previous : Option Int) (gross : Int),
      isShock k previous gross = true ↔ k ≠ 0 ∧ ∃ p, previous = some p ∧ (k : Int) * 1000 < |gross - p|)
    ∧ (∀ (depth : Nat) (g : Weight) (window : List Weight), 0 < depth →
      (window.length < depth → pushFilter depth g window = window ++ [g])
        ∧ (depth ≤ window.length → pushFilter depth g window = window.drop (window.length + 1 - depth) ++ [g])
        ∧ (window.length ≠ depth → filteredValue depth window = none)
        ∧ (window.length = depth → ∃ f, filteredValue depth window = some f
          ∧ RoundsTo (window.map Weight.grams).sum depth f.grams ∧ (f.isOver = true ↔ ∃ x ∈ window, x.isOver = true)))
    ∧ ∀ (size band : Nat) (f : Weight) (w : Weighing), 0 < size →
      (w.motion = .moving → (settlingTest size band f w).1.window = newest size (w.window ++ [f.grams])
        ∧ ((settlingTest size band f w).2 = true ↔
          (newest size (w.window ++ [f.grams])).length = size
            ∧ ∀ a ∈ newest size (w.window ++ [f.grams]), ∀ b ∈ newest size (w.window ++ [f.grams]), a - b ≤ (band : Int))
        ∧ ((settlingTest size band f w).2 = true →
          (settlingTest size band f w).1.motion = .settled f.grams ∧ (settlingTest size band f w).1.settledOver = f.isOver))
      ∧ (∀ level, w.motion = .settled level → (settlingTest size band f w).2 = false
        ∧ ((f.grams - level).natAbs ≤ band → (settlingTest size band f w).1 = w)
        ∧ (band < (f.grams - level).natAbs →
          (settlingTest size band f w).1 = { w with motion := .moving, window := [f.grams] }))

/-- The members and contributors of a group, its aggregate, quality, suspending member, projection trigger, level and alert condition; and an
evaluation, which recomputes the record from them and reports its changes: what each state of the alert record makes of a report, and the
suspension with its end. -/
def Obligations.GroupFigures : Prop :=
  (∀ (s : State) (key mask : Word),
    s.holders key mask
      = ((allLanes.filter fun l =>
          decide ((s.lane l).service.state ≠ .off ∧ (s.laneSettings l).article &&& mask = key)).map fun l =>
        ⟨(s.lane l).counter.count * (s.laneSettings l).pack, (s.lane l).service.state, (s.lane l).counter.confidence, false⟩)
        ++ (s.peers.filter fun x => decide (x.article &&& mask = key)).map fun x =>
          ⟨x.count * x.pack, x.state, x.confidence, decide (x.age = .stale)⟩)
    ∧ (∀ hs : List Holder,
    aggregateOf hs = min (((hs.filter fun h => decide (h.state = .inService ∧ h.confidence ≠ .unknown)).map Holder.stock).sum)
        16777215
      ∧ (qualityOf hs = .indeterminate ↔ ∀ h ∈ hs, ¬(h.state = .inService ∧ h.confidence ≠ .unknown))
      ∧ (qualityOf hs = .doubtful ↔ (∃ h ∈ hs, h.state = .inService ∧ h.confidence ≠ .unknown)
        ∧ ∃ h ∈ hs, h.state = .inService ∧ h.confidence = .doubtful
          ∨ h.state = .inService ∧ h.confidence ≠ .unknown ∧ h.stale = true
          ∨ h.stale = false ∧ (h.state = .fault ∨ h.confidence = .unknown))
      ∧ (suspendingOf hs = true ↔ ∃ h ∈ hs, h.stale = false ∧ (h.state = .held ∨ h.state = .resuming)))
    ∧ (∀ leadTime rate aggregate emptyPoint : Nat,
      projection leadTime rate aggregate emptyPoint = true
        ↔ leadTime ≠ 0 ∧ 16 * ((aggregate : Int) - emptyPoint) ≤ (rate : Int) * leadTime)
    ∧ (∀ (r : GroupRecord) (aggregate : Nat) (quality : Quality),
      let trigger := projection r.leadTimeMin r.rate aggregate r.emptyPoint
      (quality = .indeterminate → levelOf r aggregate quality = r.level)
        ∧ (quality ≠ .indeterminate →
          (aggregate ≤ r.emptyPoint → levelOf r aggregate quality = .empty)
          ∧ (r.emptyPoint < aggregate → aggregate ≤ r.reorderPoint ∨ trigger = true → levelOf r aggregate quality = .low)
          ∧ (r.emptyPoint < aggregate → r.reorderPoint < aggregate → r.reorderPoint + r.hysteresis ≤ aggregate → trigger = false →
            levelOf r aggregate quality = .ok)
          ∧ (r.emptyPoint < aggregate → r.reorderPoint < aggregate → aggregate < r.reorderPoint + r.hysteresis → trigger = false →
            levelOf r aggregate quality = r.level)))
    ∧ (∀ (level : Level) (quality : Quality),
      conditionOf level quality = true ↔ (level = .low ∨ level = .empty) ∧ quality ≠ .indeterminate)
    ∧ ∀ (g : GroupNo) (gr : Group) (s : State), s.group g = some gr →
      let hs := s.holders gr.record.key gr.record.mask
      let r : GroupRecord := { gr.record with
        aggregate := aggregateOf hs
        quality := qualityOf hs
        suspending := suspendingOf hs
        level := levelOf gr.record (aggregateOf hs) (qualityOf hs)
        condition := conditionOf (levelOf gr.record (aggregateOf hs) (qualityOf hs)) (qualityOf hs) }
      let t := evaluate g s
      let same := gr.record.level = r.level ∧ gr.record.quality = r.quality ∧ gr.record.condition = r.condition
      let calm := gr.record.suspending = r.suspending
      let tested (a : Alert) : Prop := (r.condition = true → s.joining = false → Defers 0 r s a)
        ∧ (r.condition = false ∨ s.joining = true → a.state = .clear)
      let cleared (a : Alert) : Prop := a.state = .clear ∧ a.level = none ∧ a.raiser = none ∧ a.raiseSent = false
        ∧ a.deference = none ∧ a.repeatTimer = none ∧ a.watch = none ∧ a.takenUntil = none ∧ a.terminal = 0
      ∃ after, t.group g = some after ∧ after.record = r
        ∧ (calm → same → t = { s with groups := s.groups.set g (some { gr with record := r }) })
        ∧ (calm → ¬ same → gr.alert.state = .clear → tested after.alert)
        ∧ (calm → ¬ same → gr.alert.state = .pending ∨ gr.alert.state = .taken →
          (r.condition = true → after.alert = gr.alert) ∧ (r.condition = false → cleared after.alert))
        ∧ (calm → gr.alert.state = .following ∨ gr.alert.state = .suspended → after.alert = gr.alert)
        ∧ (calm → ¬ same → gr.alert.state = .raised →
          (r.quality = .indeterminate → after.alert = gr.alert ∧ t.queue = s.queue)
          ∧ (r.quality ≠ .indeterminate → r.condition = false → cleared after.alert ∧ RaiseWithdrawn g t.queue
            ∧ (gr.alert.raiseSent = true → HasPlace (.alert g) s.queue →
              ∃ x ∈ t.queue, x.waiting = true ∧ x.body = .clear g r.key r.mask))
          ∧ (r.quality ≠ .indeterminate → r.condition = true → r.level.shortage ≠ gr.alert.level →
            after.alert.state = .raised ∧ after.alert.level = r.level.shortage ∧ after.alert.raiseSent = gr.alert.raiseSent
              ∧ after.alert.repeatTimer = some (s.now.addMs (s.settings.repeatUnits * 10000))
              ∧ (HasPlace (.alert g) s.queue → RaiseWaits g r r.level.shortage t.queue))
          ∧ (r.quality ≠ .indeterminate → r.condition = true → r.level.shortage = gr.alert.level →
            after.alert = gr.alert ∧ t.queue = s.queue))
        ∧ (gr.record.suspending = false → r.suspending = true → after.alert.state = .suspended
          ∧ (gr.alert.state ≠ .suspended → after.alert.level = none ∧ after.alert.raiser = none ∧ after.alert.raiseSent = false
            ∧ after.alert.deference = none ∧ after.alert.repeatTimer = none ∧ after.alert.watch = none
            ∧ after.alert.takenUntil = none ∧ after.alert.terminal = 0 ∧ RaiseWithdrawn g t.queue))
        ∧ (gr.record.suspending = true → r.suspending = false → gr.alert.state = .suspended → tested after.alert)

/-- The lamp of a lane by precedence, in every phase and brown-out, with the origin of its pattern; the group pattern of an alert record by
its state and level, shown for the lane's own group; and the record's origin, which becomes now exactly when its pattern becomes FAST or
SLOW from another. -/
def Obligations.LampPrecedence : Prop :=
  (∀ (s : State) (l : LaneNo),
    let sv := (s.lane l).service
    let mask := (s.laneSettings l).mask
    let key := (s.laneSettings l).article &&& mask
    let own (g : GroupNo) (gr : Group) : Prop := s.group g = some gr ∧ gr.record.key = key ∧ gr.record.mask = mask
    (s.station.phase = .configFault → s.lampPattern l = .faultBeat ∧ s.lampOrigin l = sv.faultBeatOrigin)
      ∧ (s.station.phase = .reset ∨ s.station.phase = .warmUp ∨ s.station.phase = .loading → s.lampPattern l = .dark)
      ∧ (s.station.phase = .joining ∨ s.station.phase = .running →
        (sv.state = .off → s.lampPattern l = .dark)
          ∧ (sv.state = .fault → s.lampPattern l = .faultBeat ∧ s.lampOrigin l = sv.faultBeatOrigin)
          ∧ (sv.state ≠ .off → sv.state ≠ .fault → sv.flash = true →
            s.lampPattern l = .refuse ∧ s.lampOrigin l = sv.refuseOrigin)
          ∧ (sv.state = .held ∨ sv.state = .resuming → sv.flash = false →
            s.lampPattern l = .holdBeat ∧ s.lampOrigin l = sv.holdBeatOrigin)
          ∧ (sv.state = .starting ∨ sv.state = .inService → sv.flash = false →
            (∀ g gr, own g gr → (∀ m, m < g → ∀ other, ¬ own m other) → s.lampPattern l = gr.alert.pattern
              ∧ (gr.alert.pattern = .fast ∨ gr.alert.pattern = .slow → s.lampOrigin l = gr.alert.origin))
            ∧ ((∀ g gr, ¬ own g gr) → s.lampPattern l = .dark))))
    ∧ (∀ a : Alert,
      (a.state = .raised ∨ a.state = .following → (a.level = some .low → a.pattern = .steady)
        ∧ (a.level = some .empty → a.pattern = .fast))
      ∧ (a.state = .taken → a.pattern = .slow)
      ∧ (a.state = .clear ∨ a.state = .pending ∨ a.state = .suspended → a.pattern = .dark))
    ∧ ∀ (s : State) (g : GroupNo) (gr : Group) (f : Alert → Alert), s.group g = some gr →
      let after := f gr.alert
      let becomes := (after.pattern = .fast ∨ after.pattern = .slow) ∧ after.pattern ≠ gr.alert.pattern
      (becomes → (s.updateAlert g f).group g = some { gr with alert := { after with origin := s.now } })
        ∧ (¬ becomes → (s.updateAlert g f).group g = some { gr with alert := after })

/-- A frame that the station forms is judged good by every receiver and carries the entry's own kind and fields, each in the width of its
field, and the sender. -/
def Obligations.FormedFrameIsJudgedGood : Prop :=
  ∀ (s : State) (b : Body), (∀ pairs, b = .survey pairs → 1 ≤ pairs.length ∧ pairs.length ≤ 4) →
    s.frameOf b = 0xC5#8 :: (s.frameOf b).tail ∧ (s.frameOf b).length = 6 + (s.bodyBytes b).length
      ∧ judge (s.frameOf b).tail = .good s.number b.carried

/-! ## What every step keeps -/

/-- Every step keeps the counters within 65,535, TEC and REC within 255, and the line state with them. -/
def Obligations.StepKeepsTheCountsSound : Prop :=
  ∀ s t : State, CountersBounded s → LineCountsSound s → step s = .next t → CountersBounded t ∧ LineCountsSound t

/-- Every step keeps the Transmit Queue sound. -/
def Obligations.StepKeepsTheQueueSound : Prop :=
  ∀ s t : State, QueueSound s → step s = .next t → QueueSound t

/-- Every step keeps the Peer Stock Table sound. -/
def Obligations.StepKeepsThePeersSound : Prop :=
  ∀ s t : State, PeersSound s → step s = .next t → PeersSound t

/-- Every step keeps the phases' timers, the lanes' hold timers and offsets, and the lanes MOVING in a holdoff. -/
def Obligations.StepKeepsTheLanesSound : Prop :=
  ∀ s t : State, StartUpSound s → LaneRecordsSound s → HoldoffMoving s → step s = .next t →
    StartUpSound t ∧ LaneRecordsSound t ∧ HoldoffMoving t

/-- Every step keeps the alert records sound, and a RAISE that is not marked in the queue only while its group is RAISED. -/
def Obligations.StepKeepsTheAlertsSound : Prop :=
  ∀ s t : State, StartUpSound s → AlertsSound s → RaisesSound s → step s = .next t → AlertsSound t ∧ RaisesSound t

/-- The invariants hold after reset. -/
def Obligations.ResetIsSound : Prop :=
  CountersBounded State.reset ∧ LineCountsSound State.reset ∧ QueueSound State.reset ∧ PeersSound State.reset
    ∧ StartUpSound State.reset ∧ LaneRecordsSound State.reset ∧ HoldoffMoving State.reset ∧ AlertsSound State.reset
    ∧ RaisesSound State.reset
end

