-- ==== Sys2Proof/Laws/State.lean ====
section
/-! SUPPORT. What each update changes, field by field: one lemma per field and update, true by rfl, and the laws of the fixed-size
families. -/

namespace Sys2Proof


/-- The item just set. -/
@[simp] theorem Four.get_set_same {α : Type} (q : Four α) (i : Fin 4) (v : α) : (q.set i v).get i = v := by
  fin_cases i <;> rfl

/-- Another item is untouched by a set. -/
theorem Four.get_set_other {α : Type} (q : Four α) {i j : Fin 4} (v : α) (h : j ≠ i) : (q.set i v).get j = q.get j := by
  fin_cases i <;> fin_cases j <;> first | rfl | exact absurd rfl h

/-- An item after a set. -/
theorem Four.get_set {α : Type} (q : Four α) (i j : Fin 4) (v : α) :
    (q.set i v).get j = if j = i then v else q.get j := by
  fin_cases i <;> fin_cases j <;> rfl

/-- A set of the item that stands there changes nothing. -/
@[simp] theorem Four.set_get {α : Type} (q : Four α) (i : Fin 4) : q.set i (q.get i) = q := by
  fin_cases i <;> rfl

/-- Of two sets of one item the second stands. -/
@[simp] theorem Four.set_set {α : Type} (q : Four α) (i : Fin 4) (v w : α) : (q.set i v).set i w = q.set i w := by
  fin_cases i <;> rfl

/-- An item of a mapped family. -/
@[simp] theorem Four.get_map {α β : Type} (f : α → β) (q : Four α) (i : Fin 4) : (q.map f).get i = f (q.get i) := by
  fin_cases i <;> rfl

/-- An item of a family given by a function. -/
@[simp] theorem Four.get_of {α : Type} (f : Fin 4 → α) (i : Fin 4) : (Four.of f).get i = f i := by
  fin_cases i <;> rfl

/-- An item of a constant family. -/
@[simp] theorem Four.get_all {α : Type} (v : α) (i : Fin 4) : (Four.all v).get i = v := by
  fin_cases i <;> rfl

/-- Two families with the same items are the same. -/
theorem Four.ext_get {α : Type} {p q : Four α} (h : ∀ i, p.get i = q.get i) : p = q := by
  cases p; cases q
  have := h 0; have := h 1; have := h 2; have := h 3
  simp_all [Four.get]

/-- A set under a map that gives the new item the value the old one had. -/
theorem Four.map_set_of_eq {α β : Type} (f : α → β) (q : Four α) (i : Fin 4) (v : α) (h : f v = f (q.get i)) :
    (q.set i v).map f = q.map f := by
  fin_cases i <;> (simp only [Four.map, Four.set, Four.get] at *; simp [h])


/-- The item just set. -/
@[simp] theorem Eight.get_set_same {α : Type} (q : Eight α) (i : Fin 8) (v : α) : (q.set i v).get i = v := by
  fin_cases i <;> rfl

/-- Another item is untouched by a set. -/
theorem Eight.get_set_other {α : Type} (q : Eight α) {i j : Fin 8} (v : α) (h : j ≠ i) : (q.set i v).get j = q.get j := by
  fin_cases i <;> fin_cases j <;> first | rfl | exact absurd rfl h

/-- An item after a set. -/
theorem Eight.get_set {α : Type} (q : Eight α) (i j : Fin 8) (v : α) :
    (q.set i v).get j = if j = i then v else q.get j := by
  fin_cases i <;> fin_cases j <;> rfl

/-- A set of the item that stands there changes nothing. -/
@[simp] theorem Eight.set_get {α : Type} (q : Eight α) (i : Fin 8) : q.set i (q.get i) = q := by
  fin_cases i <;> rfl

/-- Of two sets of one item the second stands. -/
@[simp] theorem Eight.set_set {α : Type} (q : Eight α) (i : Fin 8) (v w : α) : (q.set i v).set i w = q.set i w := by
  fin_cases i <;> rfl

/-- An item of a mapped family. -/
@[simp] theorem Eight.get_map {α β : Type} (f : α → β) (q : Eight α) (i : Fin 8) : (q.map f).get i = f (q.get i) := by
  fin_cases i <;> rfl

/-- An item of a family given by a function. -/
@[simp] theorem Eight.get_of {α : Type} (f : Fin 8 → α) (i : Fin 8) : (Eight.of f).get i = f i := by
  fin_cases i <;> rfl

/-- An item of a constant family. -/
@[simp] theorem Eight.get_all {α : Type} (v : α) (i : Fin 8) : (Eight.all v).get i = v := by
  fin_cases i <;> rfl

/-- Two families with the same items are the same. -/
theorem Eight.ext_get {α : Type} {p q : Eight α} (h : ∀ i, p.get i = q.get i) : p = q := by
  cases p; cases q
  have := h 0; have := h 1; have := h 2; have := h 3; have := h 4; have := h 5; have := h 6; have := h 7
  simp_all [Eight.get]

/-- A set under a map that gives the new item the value the old one had. -/
theorem Eight.map_set_of_eq {α β : Type} (f : α → β) (q : Eight α) (i : Fin 8) (v : α) (h : f v = f (q.get i)) :
    (q.set i v).map f = q.map f := by
  fin_cases i <;> (simp only [Eight.map, Eight.set, Eight.get] at *; simp [h])


namespace Machine

variable (s : State)

@[simp] theorem State.updateStation_station (f : StationControl → StationControl) :
    (s.updateStation f).station = f s.station := rfl
@[simp] theorem State.updateStation_engine (f : StationControl → StationControl) : (s.updateStation f).engine = s.engine := rfl
@[simp] theorem State.updateStation_lanes (f : StationControl → StationControl) : (s.updateStation f).lanes = s.lanes := rfl
@[simp] theorem State.updateStation_shock (f : StationControl → StationControl) : (s.updateStation f).shock = s.shock := rfl
@[simp] theorem State.updateStation_line (f : StationControl → StationControl) : (s.updateStation f).line = s.line := rfl
@[simp] theorem State.updateStation_queue (f : StationControl → StationControl) : (s.updateStation f).queue = s.queue := rfl
@[simp] theorem State.updateStation_peers (f : StationControl → StationControl) : (s.updateStation f).peers = s.peers := rfl
@[simp] theorem State.updateStation_groups (f : StationControl → StationControl) : (s.updateStation f).groups = s.groups := rfl
@[simp] theorem State.updateStation_reportTimer (f : StationControl → StationControl) :
    (s.updateStation f).reportTimer = s.reportTimer := rfl
@[simp] theorem State.updateStation_rateTick (f : StationControl → StationControl) :
    (s.updateStation f).rateTick = s.rateTick := rfl
@[simp] theorem State.updateStation_choices (f : StationControl → StationControl) : (s.updateStation f).choices = s.choices := rfl
@[simp] theorem State.updateStation_pending (f : StationControl → StationControl) : (s.updateStation f).pending = s.pending := rfl

@[simp] theorem State.updateEngine_station (f : Engine → Engine) : (s.updateEngine f).station = s.station := rfl
@[simp] theorem State.updateEngine_engine (f : Engine → Engine) : (s.updateEngine f).engine = f s.engine := rfl
@[simp] theorem State.updateEngine_lanes (f : Engine → Engine) : (s.updateEngine f).lanes = s.lanes := rfl
@[simp] theorem State.updateEngine_shock (f : Engine → Engine) : (s.updateEngine f).shock = s.shock := rfl
@[simp] theorem State.updateEngine_line (f : Engine → Engine) : (s.updateEngine f).line = s.line := rfl
@[simp] theorem State.updateEngine_queue (f : Engine → Engine) : (s.updateEngine f).queue = s.queue := rfl
@[simp] theorem State.updateEngine_peers (f : Engine → Engine) : (s.updateEngine f).peers = s.peers := rfl
@[simp] theorem State.updateEngine_groups (f : Engine → Engine) : (s.updateEngine f).groups = s.groups := rfl
@[simp] theorem State.updateEngine_reportTimer (f : Engine → Engine) : (s.updateEngine f).reportTimer = s.reportTimer := rfl
@[simp] theorem State.updateEngine_rateTick (f : Engine → Engine) : (s.updateEngine f).rateTick = s.rateTick := rfl
@[simp] theorem State.updateEngine_choices (f : Engine → Engine) : (s.updateEngine f).choices = s.choices := rfl
@[simp] theorem State.updateEngine_pending (f : Engine → Engine) : (s.updateEngine f).pending = s.pending := rfl

@[simp] theorem State.updateChannel_station (c : ChannelNo) (f : Channel → Channel) :
    (s.updateChannel c f).station = s.station := rfl
@[simp] theorem State.updateChannel_engine (c : ChannelNo) (f : Channel → Channel) :
    (s.updateChannel c f).engine = { s.engine with channels := s.engine.channels.set c (f (s.engine.channels.get c)) } := rfl
@[simp] theorem State.updateChannel_lanes (c : ChannelNo) (f : Channel → Channel) : (s.updateChannel c f).lanes = s.lanes := rfl
@[simp] theorem State.updateChannel_shock (c : ChannelNo) (f : Channel → Channel) : (s.updateChannel c f).shock = s.shock := rfl
@[simp] theorem State.updateChannel_line (c : ChannelNo) (f : Channel → Channel) : (s.updateChannel c f).line = s.line := rfl
@[simp] theorem State.updateChannel_queue (c : ChannelNo) (f : Channel → Channel) : (s.updateChannel c f).queue = s.queue := rfl
@[simp] theorem State.updateChannel_peers (c : ChannelNo) (f : Channel → Channel) : (s.updateChannel c f).peers = s.peers := rfl
@[simp] theorem State.updateChannel_groups (c : ChannelNo) (f : Channel → Channel) :
    (s.updateChannel c f).groups = s.groups := rfl
@[simp] theorem State.updateChannel_reportTimer (c : ChannelNo) (f : Channel → Channel) :
    (s.updateChannel c f).reportTimer = s.reportTimer := rfl
@[simp] theorem State.updateChannel_rateTick (c : ChannelNo) (f : Channel → Channel) :
    (s.updateChannel c f).rateTick = s.rateTick := rfl
@[simp] theorem State.updateChannel_choices (c : ChannelNo) (f : Channel → Channel) :
    (s.updateChannel c f).choices = s.choices := rfl
@[simp] theorem State.updateChannel_pending (c : ChannelNo) (f : Channel → Channel) :
    (s.updateChannel c f).pending = s.pending := rfl

@[simp] theorem State.updateShock_station (f : ShockMonitor → ShockMonitor) : (s.updateShock f).station = s.station := rfl
@[simp] theorem State.updateShock_engine (f : ShockMonitor → ShockMonitor) : (s.updateShock f).engine = s.engine := rfl
@[simp] theorem State.updateShock_lanes (f : ShockMonitor → ShockMonitor) : (s.updateShock f).lanes = s.lanes := rfl
@[simp] theorem State.updateShock_shock (f : ShockMonitor → ShockMonitor) : (s.updateShock f).shock = f s.shock := rfl
@[simp] theorem State.updateShock_line (f : ShockMonitor → ShockMonitor) : (s.updateShock f).line = s.line := rfl
@[simp] theorem State.updateShock_queue (f : ShockMonitor → ShockMonitor) : (s.updateShock f).queue = s.queue := rfl
@[simp] theorem State.updateShock_peers (f : ShockMonitor → ShockMonitor) : (s.updateShock f).peers = s.peers := rfl
@[simp] theorem State.updateShock_groups (f : ShockMonitor → ShockMonitor) : (s.updateShock f).groups = s.groups := rfl
@[simp] theorem State.updateShock_reportTimer (f : ShockMonitor → ShockMonitor) :
    (s.updateShock f).reportTimer = s.reportTimer := rfl
@[simp] theorem State.updateShock_rateTick (f : ShockMonitor → ShockMonitor) : (s.updateShock f).rateTick = s.rateTick := rfl
@[simp] theorem State.updateShock_choices (f : ShockMonitor → ShockMonitor) : (s.updateShock f).choices = s.choices := rfl
@[simp] theorem State.updateShock_pending (f : ShockMonitor → ShockMonitor) : (s.updateShock f).pending = s.pending := rfl

@[simp] theorem State.updateLine_station (f : LineController → LineController) : (s.updateLine f).station = s.station := rfl
@[simp] theorem State.updateLine_engine (f : LineController → LineController) : (s.updateLine f).engine = s.engine := rfl
@[simp] theorem State.updateLine_lanes (f : LineController → LineController) : (s.updateLine f).lanes = s.lanes := rfl
@[simp] theorem State.updateLine_shock (f : LineController → LineController) : (s.updateLine f).shock = s.shock := rfl
@[simp] theorem State.updateLine_line (f : LineController → LineController) : (s.updateLine f).line = f s.line := rfl
@[simp] theorem State.updateLine_queue (f : LineController → LineController) : (s.updateLine f).queue = s.queue := rfl
@[simp] theorem State.updateLine_peers (f : LineController → LineController) : (s.updateLine f).peers = s.peers := rfl
@[simp] theorem State.updateLine_groups (f : LineController → LineController) : (s.updateLine f).groups = s.groups := rfl
@[simp] theorem State.updateLine_reportTimer (f : LineController → LineController) :
    (s.updateLine f).reportTimer = s.reportTimer := rfl
@[simp] theorem State.updateLine_rateTick (f : LineController → LineController) : (s.updateLine f).rateTick = s.rateTick := rfl
@[simp] theorem State.updateLine_choices (f : LineController → LineController) : (s.updateLine f).choices = s.choices := rfl
@[simp] theorem State.updateLine_pending (f : LineController → LineController) : (s.updateLine f).pending = s.pending := rfl

@[simp] theorem State.updateLane_station (l : LaneNo) (f : Lane → Lane) : (s.updateLane l f).station = s.station := rfl
@[simp] theorem State.updateLane_engine (l : LaneNo) (f : Lane → Lane) : (s.updateLane l f).engine = s.engine := rfl
@[simp] theorem State.updateLane_lanes (l : LaneNo) (f : Lane → Lane) :
    (s.updateLane l f).lanes = s.lanes.set l (f (s.lanes.get l)) := rfl
@[simp] theorem State.updateLane_shock (l : LaneNo) (f : Lane → Lane) : (s.updateLane l f).shock = s.shock := rfl
@[simp] theorem State.updateLane_line (l : LaneNo) (f : Lane → Lane) : (s.updateLane l f).line = s.line := rfl
@[simp] theorem State.updateLane_queue (l : LaneNo) (f : Lane → Lane) : (s.updateLane l f).queue = s.queue := rfl
@[simp] theorem State.updateLane_peers (l : LaneNo) (f : Lane → Lane) : (s.updateLane l f).peers = s.peers := rfl
@[simp] theorem State.updateLane_groups (l : LaneNo) (f : Lane → Lane) : (s.updateLane l f).groups = s.groups := rfl
@[simp] theorem State.updateLane_reportTimer (l : LaneNo) (f : Lane → Lane) :
    (s.updateLane l f).reportTimer = s.reportTimer := rfl
@[simp] theorem State.updateLane_rateTick (l : LaneNo) (f : Lane → Lane) : (s.updateLane l f).rateTick = s.rateTick := rfl
@[simp] theorem State.updateLane_choices (l : LaneNo) (f : Lane → Lane) : (s.updateLane l f).choices = s.choices := rfl
@[simp] theorem State.updateLane_pending (l : LaneNo) (f : Lane → Lane) : (s.updateLane l f).pending = s.pending := rfl

@[simp] theorem State.updateService_station (l : LaneNo) (f : Service → Service) :
    (s.updateService l f).station = s.station := rfl
@[simp] theorem State.updateService_engine (l : LaneNo) (f : Service → Service) : (s.updateService l f).engine = s.engine := rfl
@[simp] theorem State.updateService_lanes (l : LaneNo) (f : Service → Service) :
    (s.updateService l f).lanes = s.lanes.set l { s.lanes.get l with service := f (s.lanes.get l).service } := rfl
@[simp] theorem State.updateService_shock (l : LaneNo) (f : Service → Service) : (s.updateService l f).shock = s.shock := rfl
@[simp] theorem State.updateService_line (l : LaneNo) (f : Service → Service) : (s.updateService l f).line = s.line := rfl
@[simp] theorem State.updateService_queue (l : LaneNo) (f : Service → Service) : (s.updateService l f).queue = s.queue := rfl
@[simp] theorem State.updateService_peers (l : LaneNo) (f : Service → Service) : (s.updateService l f).peers = s.peers := rfl
@[simp] theorem State.updateService_groups (l : LaneNo) (f : Service → Service) : (s.updateService l f).groups = s.groups := rfl
@[simp] theorem State.updateService_reportTimer (l : LaneNo) (f : Service → Service) :
    (s.updateService l f).reportTimer = s.reportTimer := rfl
@[simp] theorem State.updateService_rateTick (l : LaneNo) (f : Service → Service) :
    (s.updateService l f).rateTick = s.rateTick := rfl
@[simp] theorem State.updateService_choices (l : LaneNo) (f : Service → Service) :
    (s.updateService l f).choices = s.choices := rfl
@[simp] theorem State.updateService_pending (l : LaneNo) (f : Service → Service) :
    (s.updateService l f).pending = s.pending := rfl

@[simp] theorem State.updateWeighing_station (l : LaneNo) (f : Weighing → Weighing) :
    (s.updateWeighing l f).station = s.station := rfl
@[simp] theorem State.updateWeighing_engine (l : LaneNo) (f : Weighing → Weighing) :
    (s.updateWeighing l f).engine = s.engine := rfl
@[simp] theorem State.updateWeighing_lanes (l : LaneNo) (f : Weighing → Weighing) :
    (s.updateWeighing l f).lanes = s.lanes.set l { s.lanes.get l with weighing := f (s.lanes.get l).weighing } := rfl
@[simp] theorem State.updateWeighing_shock (l : LaneNo) (f : Weighing → Weighing) : (s.updateWeighing l f).shock = s.shock := rfl
@[simp] theorem State.updateWeighing_line (l : LaneNo) (f : Weighing → Weighing) : (s.updateWeighing l f).line = s.line := rfl
@[simp] theorem State.updateWeighing_queue (l : LaneNo) (f : Weighing → Weighing) : (s.updateWeighing l f).queue = s.queue := rfl
@[simp] theorem State.updateWeighing_peers (l : LaneNo) (f : Weighing → Weighing) : (s.updateWeighing l f).peers = s.peers := rfl
@[simp] theorem State.updateWeighing_groups (l : LaneNo) (f : Weighing → Weighing) :
    (s.updateWeighing l f).groups = s.groups := rfl
@[simp] theorem State.updateWeighing_reportTimer (l : LaneNo) (f : Weighing → Weighing) :
    (s.updateWeighing l f).reportTimer = s.reportTimer := rfl
@[simp] theorem State.updateWeighing_rateTick (l : LaneNo) (f : Weighing → Weighing) :
    (s.updateWeighing l f).rateTick = s.rateTick := rfl
@[simp] theorem State.updateWeighing_choices (l : LaneNo) (f : Weighing → Weighing) :
    (s.updateWeighing l f).choices = s.choices := rfl
@[simp] theorem State.updateWeighing_pending (l : LaneNo) (f : Weighing → Weighing) :
    (s.updateWeighing l f).pending = s.pending := rfl

@[simp] theorem State.updateAllWeighing_station (f : Weighing → Weighing) : (s.updateAllWeighing f).station = s.station := rfl
@[simp] theorem State.updateAllWeighing_engine (f : Weighing → Weighing) : (s.updateAllWeighing f).engine = s.engine := rfl
@[simp] theorem State.updateAllWeighing_lanes (f : Weighing → Weighing) :
    (s.updateAllWeighing f).lanes = s.lanes.map fun lane => { lane with weighing := f lane.weighing } := rfl
@[simp] theorem State.updateAllWeighing_shock (f : Weighing → Weighing) : (s.updateAllWeighing f).shock = s.shock := rfl
@[simp] theorem State.updateAllWeighing_line (f : Weighing → Weighing) : (s.updateAllWeighing f).line = s.line := rfl
@[simp] theorem State.updateAllWeighing_queue (f : Weighing → Weighing) : (s.updateAllWeighing f).queue = s.queue := rfl
@[simp] theorem State.updateAllWeighing_peers (f : Weighing → Weighing) : (s.updateAllWeighing f).peers = s.peers := rfl
@[simp] theorem State.updateAllWeighing_groups (f : Weighing → Weighing) : (s.updateAllWeighing f).groups = s.groups := rfl
@[simp] theorem State.updateAllWeighing_reportTimer (f : Weighing → Weighing) :
    (s.updateAllWeighing f).reportTimer = s.reportTimer := rfl
@[simp] theorem State.updateAllWeighing_rateTick (f : Weighing → Weighing) : (s.updateAllWeighing f).rateTick = s.rateTick := rfl
@[simp] theorem State.updateAllWeighing_choices (f : Weighing → Weighing) : (s.updateAllWeighing f).choices = s.choices := rfl
@[simp] theorem State.updateAllWeighing_pending (f : Weighing → Weighing) : (s.updateAllWeighing f).pending = s.pending := rfl

@[simp] theorem State.updateGroup_station (g : GroupNo) (f : Group → Group) : (s.updateGroup g f).station = s.station := rfl
@[simp] theorem State.updateGroup_engine (g : GroupNo) (f : Group → Group) : (s.updateGroup g f).engine = s.engine := rfl
@[simp] theorem State.updateGroup_lanes (g : GroupNo) (f : Group → Group) : (s.updateGroup g f).lanes = s.lanes := rfl
@[simp] theorem State.updateGroup_shock (g : GroupNo) (f : Group → Group) : (s.updateGroup g f).shock = s.shock := rfl
@[simp] theorem State.updateGroup_line (g : GroupNo) (f : Group → Group) : (s.updateGroup g f).line = s.line := rfl
@[simp] theorem State.updateGroup_queue (g : GroupNo) (f : Group → Group) : (s.updateGroup g f).queue = s.queue := rfl
@[simp] theorem State.updateGroup_peers (g : GroupNo) (f : Group → Group) : (s.updateGroup g f).peers = s.peers := rfl
@[simp] theorem State.updateGroup_groups (g : GroupNo) (f : Group → Group) :
    (s.updateGroup g f).groups = s.groups.set g ((s.groups.get g).map f) := rfl
@[simp] theorem State.updateGroup_reportTimer (g : GroupNo) (f : Group → Group) :
    (s.updateGroup g f).reportTimer = s.reportTimer := rfl
@[simp] theorem State.updateGroup_rateTick (g : GroupNo) (f : Group → Group) : (s.updateGroup g f).rateTick = s.rateTick := rfl
@[simp] theorem State.updateGroup_choices (g : GroupNo) (f : Group → Group) : (s.updateGroup g f).choices = s.choices := rfl
@[simp] theorem State.updateGroup_pending (g : GroupNo) (f : Group → Group) : (s.updateGroup g f).pending = s.pending := rfl

@[simp] theorem State.updateRecord_station (g : GroupNo) (f : GroupRecord → GroupRecord) :
    (s.updateRecord g f).station = s.station := rfl
@[simp] theorem State.updateRecord_engine (g : GroupNo) (f : GroupRecord → GroupRecord) :
    (s.updateRecord g f).engine = s.engine := rfl
@[simp] theorem State.updateRecord_lanes (g : GroupNo) (f : GroupRecord → GroupRecord) :
    (s.updateRecord g f).lanes = s.lanes := rfl
@[simp] theorem State.updateRecord_shock (g : GroupNo) (f : GroupRecord → GroupRecord) :
    (s.updateRecord g f).shock = s.shock := rfl
@[simp] theorem State.updateRecord_line (g : GroupNo) (f : GroupRecord → GroupRecord) : (s.updateRecord g f).line = s.line := rfl
@[simp] theorem State.updateRecord_queue (g : GroupNo) (f : GroupRecord → GroupRecord) :
    (s.updateRecord g f).queue = s.queue := rfl
@[simp] theorem State.updateRecord_peers (g : GroupNo) (f : GroupRecord → GroupRecord) :
    (s.updateRecord g f).peers = s.peers := rfl
@[simp] theorem State.updateRecord_groups (g : GroupNo) (f : GroupRecord → GroupRecord) :
    (s.updateRecord g f).groups = s.groups.set g ((s.groups.get g).map fun gr => { gr with record := f gr.record }) := rfl
@[simp] theorem State.updateRecord_reportTimer (g : GroupNo) (f : GroupRecord → GroupRecord) :
    (s.updateRecord g f).reportTimer = s.reportTimer := rfl
@[simp] theorem State.updateRecord_rateTick (g : GroupNo) (f : GroupRecord → GroupRecord) :
    (s.updateRecord g f).rateTick = s.rateTick := rfl
@[simp] theorem State.updateRecord_choices (g : GroupNo) (f : GroupRecord → GroupRecord) :
    (s.updateRecord g f).choices = s.choices := rfl
@[simp] theorem State.updateRecord_pending (g : GroupNo) (f : GroupRecord → GroupRecord) :
    (s.updateRecord g f).pending = s.pending := rfl

@[simp] theorem State.updateAlert_station (g : GroupNo) (f : Alert → Alert) : (s.updateAlert g f).station = s.station := rfl
@[simp] theorem State.updateAlert_engine (g : GroupNo) (f : Alert → Alert) : (s.updateAlert g f).engine = s.engine := rfl
@[simp] theorem State.updateAlert_lanes (g : GroupNo) (f : Alert → Alert) : (s.updateAlert g f).lanes = s.lanes := rfl
@[simp] theorem State.updateAlert_shock (g : GroupNo) (f : Alert → Alert) : (s.updateAlert g f).shock = s.shock := rfl
@[simp] theorem State.updateAlert_line (g : GroupNo) (f : Alert → Alert) : (s.updateAlert g f).line = s.line := rfl
@[simp] theorem State.updateAlert_queue (g : GroupNo) (f : Alert → Alert) : (s.updateAlert g f).queue = s.queue := rfl
@[simp] theorem State.updateAlert_peers (g : GroupNo) (f : Alert → Alert) : (s.updateAlert g f).peers = s.peers := rfl
@[simp] theorem State.updateAlert_groups (g : GroupNo) (f : Alert → Alert) :
    (s.updateAlert g f).groups = s.groups.set g ((s.groups.get g).map fun gr => { gr with alert := gr.alert.withOrigin (f gr.alert) s.now }) := rfl
@[simp] theorem State.updateAlert_reportTimer (g : GroupNo) (f : Alert → Alert) :
    (s.updateAlert g f).reportTimer = s.reportTimer := rfl
@[simp] theorem State.updateAlert_rateTick (g : GroupNo) (f : Alert → Alert) : (s.updateAlert g f).rateTick = s.rateTick := rfl
@[simp] theorem State.updateAlert_choices (g : GroupNo) (f : Alert → Alert) : (s.updateAlert g f).choices = s.choices := rfl
@[simp] theorem State.updateAlert_pending (g : GroupNo) (f : Alert → Alert) : (s.updateAlert g f).pending = s.pending := rfl

@[simp] theorem State.count_station (name : CounterName) (k : Nat) :
    (s.count name k).station = { s.station with counters := s.station.counters.add name k } := rfl
@[simp] theorem State.count_engine (name : CounterName) (k : Nat) : (s.count name k).engine = s.engine := rfl
@[simp] theorem State.count_lanes (name : CounterName) (k : Nat) : (s.count name k).lanes = s.lanes := rfl
@[simp] theorem State.count_shock (name : CounterName) (k : Nat) : (s.count name k).shock = s.shock := rfl
@[simp] theorem State.count_line (name : CounterName) (k : Nat) : (s.count name k).line = s.line := rfl
@[simp] theorem State.count_queue (name : CounterName) (k : Nat) : (s.count name k).queue = s.queue := rfl
@[simp] theorem State.count_peers (name : CounterName) (k : Nat) : (s.count name k).peers = s.peers := rfl
@[simp] theorem State.count_groups (name : CounterName) (k : Nat) : (s.count name k).groups = s.groups := rfl
@[simp] theorem State.count_reportTimer (name : CounterName) (k : Nat) : (s.count name k).reportTimer = s.reportTimer := rfl
@[simp] theorem State.count_rateTick (name : CounterName) (k : Nat) : (s.count name k).rateTick = s.rateTick := rfl
@[simp] theorem State.count_choices (name : CounterName) (k : Nat) : (s.count name k).choices = s.choices := rfl
@[simp] theorem State.count_pending (name : CounterName) (k : Nat) : (s.count name k).pending = s.pending := rfl

@[simp] theorem State.latch_station (name : FlagName) :
    (s.latch name).station = { s.station with flags := s.station.flags.raise name, notes := { s.station.notes with flags := s.station.notes.flags.raise name } } := rfl
@[simp] theorem State.latch_engine (name : FlagName) : (s.latch name).engine = s.engine := rfl
@[simp] theorem State.latch_lanes (name : FlagName) : (s.latch name).lanes = s.lanes := rfl
@[simp] theorem State.latch_shock (name : FlagName) : (s.latch name).shock = s.shock := rfl
@[simp] theorem State.latch_line (name : FlagName) : (s.latch name).line = s.line := rfl
@[simp] theorem State.latch_queue (name : FlagName) : (s.latch name).queue = s.queue := rfl
@[simp] theorem State.latch_peers (name : FlagName) : (s.latch name).peers = s.peers := rfl
@[simp] theorem State.latch_groups (name : FlagName) : (s.latch name).groups = s.groups := rfl
@[simp] theorem State.latch_reportTimer (name : FlagName) : (s.latch name).reportTimer = s.reportTimer := rfl
@[simp] theorem State.latch_rateTick (name : FlagName) : (s.latch name).rateTick = s.rateTick := rfl
@[simp] theorem State.latch_choices (name : FlagName) : (s.latch name).choices = s.choices := rfl
@[simp] theorem State.latch_pending (name : FlagName) : (s.latch name).pending = s.pending := rfl

@[simp] theorem State.noteDrift_station (l : LaneNo) :
    (s.noteDrift l).station = { s.station with notes := { s.station.notes with drift := s.station.notes.drift.set l true } } := rfl
@[simp] theorem State.noteDrift_engine (l : LaneNo) : (s.noteDrift l).engine = s.engine := rfl
@[simp] theorem State.noteDrift_lanes (l : LaneNo) : (s.noteDrift l).lanes = s.lanes := rfl
@[simp] theorem State.noteDrift_shock (l : LaneNo) : (s.noteDrift l).shock = s.shock := rfl
@[simp] theorem State.noteDrift_line (l : LaneNo) : (s.noteDrift l).line = s.line := rfl
@[simp] theorem State.noteDrift_queue (l : LaneNo) : (s.noteDrift l).queue = s.queue := rfl
@[simp] theorem State.noteDrift_peers (l : LaneNo) : (s.noteDrift l).peers = s.peers := rfl
@[simp] theorem State.noteDrift_groups (l : LaneNo) : (s.noteDrift l).groups = s.groups := rfl
@[simp] theorem State.noteDrift_reportTimer (l : LaneNo) : (s.noteDrift l).reportTimer = s.reportTimer := rfl
@[simp] theorem State.noteDrift_rateTick (l : LaneNo) : (s.noteDrift l).rateTick = s.rateTick := rfl
@[simp] theorem State.noteDrift_choices (l : LaneNo) : (s.noteDrift l).choices = s.choices := rfl
@[simp] theorem State.noteDrift_pending (l : LaneNo) : (s.noteDrift l).pending = s.pending := rfl

@[simp] theorem State.spend_station : s.spend.station = s.station := rfl
@[simp] theorem State.spend_engine : s.spend.engine = s.engine := rfl
@[simp] theorem State.spend_lanes : s.spend.lanes = s.lanes := rfl
@[simp] theorem State.spend_shock : s.spend.shock = s.shock := rfl
@[simp] theorem State.spend_line : s.spend.line = s.line := rfl
@[simp] theorem State.spend_queue : s.spend.queue = s.queue := rfl
@[simp] theorem State.spend_peers : s.spend.peers = s.peers := rfl
@[simp] theorem State.spend_groups : s.spend.groups = s.groups := rfl
@[simp] theorem State.spend_reportTimer : s.spend.reportTimer = s.reportTimer := rfl
@[simp] theorem State.spend_rateTick : s.spend.rateTick = s.rateTick := rfl
@[simp] theorem State.spend_choices : s.spend.choices = s.choices + 1 := rfl
@[simp] theorem State.spend_pending : s.spend.pending = s.pending := rfl

/-- The clock is Station Control's. -/
theorem State.now_eq : s.now = s.station.clock := rfl

/-- A lane is read from the family of lanes. -/
theorem State.lane_eq (l : LaneNo) : s.lane l = s.lanes.get l := rfl

/-- A group is read from the family of groups. -/
theorem State.group_eq (g : GroupNo) : s.group g = s.groups.get g := rfl

end Machine

end Sys2Proof
end

