-- ==== Sys2Proof/Laws/Views.lean ====
section
/-! SUPPORT. Everything that the shared operations of the Transmit Queue, the Alert Controller and the Group Evaluator can do: each keeps
a view of the state in which only their own fields are erased. -/

namespace Sys2Proof.Machine

/-! ## The two views -/

/-- A lane but for its report-due flag. -/
def Lane.laneView (lane : Lane) : Lane := { lane with service := { lane.service with reportDue := false } }

/-- The state without what the Transmit Queue and its owners' notices may change: the queue, the report-due flags, the two queue
counters, the SURVEY's progress and the counter of free choices. -/
def State.queueView (s : State) : State :=
  { s with
    station := { s.station with
      counters := { s.station.counters with queueEvictions := 0, queueRefusals := 0 }
      joinTimer := s.station.joinTimer.map fun j => { j with survey := .notOffered } }
    lanes := s.lanes.map Lane.laneView
    queue := []
    choices := 0 }

/-- The same without the groups' records. -/
def State.aisleView (s : State) : State := { s.queueView with groups := Four.all none }

/-- Two states that agree but for the Transmit Queue. -/
def State.AgreesButQueue (t s : State) : Prop := t.queueView = s.queueView

/-- Two states that agree but for the Transmit Queue and the groups' records. -/
def State.AgreesButAisle (t s : State) : Prop := t.aisleView = s.aisleView

namespace State.AgreesButQueue

variable {s t u : State}

theorem refl (s : State) : s.AgreesButQueue s := rfl

theorem trans (h : u.AgreesButQueue t) (k : t.AgreesButQueue s) : u.AgreesButQueue s := Eq.trans h k

theorem view {β : Type} (f : State → β) (h : t.AgreesButQueue s) : f t.queueView = f s.queueView := congrArg f h

theorem aisle (h : t.AgreesButQueue s) : t.AgreesButAisle s := by
  unfold State.AgreesButQueue at h
  unfold State.AgreesButAisle State.aisleView
  rw [h]

theorem groups (h : t.AgreesButQueue s) : t.groups = s.groups := h.view State.groups

end State.AgreesButQueue

namespace State.AgreesButAisle

variable {s t u : State}

theorem refl (s : State) : s.AgreesButAisle s := rfl

theorem trans (h : u.AgreesButAisle t) (k : t.AgreesButAisle s) : u.AgreesButAisle s := Eq.trans h k

theorem view {β : Type} (f : State → β) (h : t.AgreesButAisle s) : f t.aisleView = f s.aisleView := congrArg f h

theorem engine (h : t.AgreesButAisle s) : t.engine = s.engine := h.view State.engine

theorem shock (h : t.AgreesButAisle s) : t.shock = s.shock := h.view State.shock

theorem line (h : t.AgreesButAisle s) : t.line = s.line := h.view State.line

theorem peers (h : t.AgreesButAisle s) : t.peers = s.peers := h.view State.peers

theorem reportTimer (h : t.AgreesButAisle s) : t.reportTimer = s.reportTimer := h.view State.reportTimer

theorem rateTick (h : t.AgreesButAisle s) : t.rateTick = s.rateTick := h.view State.rateTick

theorem pending (h : t.AgreesButAisle s) : t.pending = s.pending := h.view State.pending

theorem phase (h : t.AgreesButAisle s) : t.station.phase = s.station.phase :=
  h.view fun x : State => x.station.phase

theorem clock (h : t.AgreesButAisle s) : t.station.clock = s.station.clock :=
  h.view fun x : State => x.station.clock

theorem number (h : t.AgreesButAisle s) : t.station.number = s.station.number :=
  h.view fun x : State => x.station.number

theorem resetCause (h : t.AgreesButAisle s) : t.station.resetCause = s.station.resetCause :=
  h.view fun x : State => x.station.resetCause

theorem brownOut (h : t.AgreesButAisle s) : t.station.brownOut = s.station.brownOut :=
  h.view fun x : State => x.station.brownOut

theorem supplyGood (h : t.AgreesButAisle s) : t.station.supplyGood = s.station.supplyGood :=
  h.view fun x : State => x.station.supplyGood

theorem warmUpTimer (h : t.AgreesButAisle s) : t.station.warmUpTimer = s.station.warmUpTimer :=
  h.view fun x : State => x.station.warmUpTimer

theorem block (h : t.AgreesButAisle s) : t.station.block = s.station.block :=
  h.view fun x : State => x.station.block

theorem config (h : t.AgreesButAisle s) : t.station.config = s.station.config :=
  h.view fun x : State => x.station.config

theorem flags (h : t.AgreesButAisle s) : t.station.flags = s.station.flags :=
  h.view fun x : State => x.station.flags

theorem notes (h : t.AgreesButAisle s) : t.station.notes = s.station.notes :=
  h.view fun x : State => x.station.notes

theorem capture (h : t.AgreesButAisle s) : t.station.capture = s.station.capture :=
  h.view fun x : State => x.station.capture

theorem seed (h : t.AgreesButAisle s) : t.station.seed = s.station.seed :=
  h.view fun x : State => x.station.seed

/-- The counters but for the two of the queue. -/
theorem counters (h : t.AgreesButAisle s) :
    { t.station.counters with queueEvictions := 0, queueRefusals := 0 }
      = { s.station.counters with queueEvictions := 0, queueRefusals := 0 } :=
  h.view fun x : State => x.station.counters

/-- A lane agrees but for its report-due flag. -/
theorem lane (h : t.AgreesButAisle s) (l : LaneNo) : (t.lane l).laneView = (s.lane l).laneView := by
  have := h.view fun x : State => x.lanes.get l
  simpa [State.aisleView, State.queueView, State.lane] using this

theorem laneField {β : Type} (f : Lane → β) (h : t.AgreesButAisle s) (l : LaneNo) :
    f (t.lane l).laneView = f (s.lane l).laneView := congrArg f (h.lane l)

theorem weighing (h : t.AgreesButAisle s) (l : LaneNo) : (t.lane l).weighing = (s.lane l).weighing :=
  h.laneField Lane.weighing l

theorem counter (h : t.AgreesButAisle s) (l : LaneNo) : (t.lane l).counter = (s.lane l).counter :=
  h.laneField Lane.counter l

theorem laneState (h : t.AgreesButAisle s) (l : LaneNo) : (t.lane l).service.state = (s.lane l).service.state :=
  h.laneField (fun x : Lane => x.service.state) l

theorem laneSettings (h : t.AgreesButAisle s) (l : LaneNo) : t.laneSettings l = s.laneSettings l := by
  simp only [State.laneSettings, h.config]

theorem settings (h : t.AgreesButAisle s) : t.settings = s.settings := by
  simp only [State.settings, h.config]

theorem inBrownOut (h : t.AgreesButAisle s) : t.inBrownOut = s.inBrownOut := by
  simp only [State.inBrownOut, h.brownOut]

theorem now (h : t.AgreesButAisle s) : t.now = s.now := h.clock

end State.AgreesButAisle

/-! ## Orders and draws -/

/-- A relation that a step keeps is kept by any number of them. -/
theorem foldl_relates {α σ : Type} (R : σ → σ → Prop) (refl : ∀ s, R s s) (trans : ∀ {a b c}, R a b → R b c → R a c)
    (f : σ → α → σ) (hf : ∀ s a, R (f s a) s) (l : List α) (s : σ) : R (l.foldl f s) s := by
  induction l generalizing s with
  | nil => exact refl s
  | cons a l ih => exact trans (ih (f s a)) (hf s a)

theorem spend_agrees (s : State) : s.spend.AgreesButQueue s := rfl

theorem draw_snd (n : Nat) (s : State) : (s.draw n).2 = s.spend := rfl

theorem draw_agrees (n : Nat) (s : State) : (s.draw n).2.AgreesButQueue s := rfl

theorem eachLane_agrees {f : LaneNo → State → State} (hf : ∀ l s, (f l s).AgreesButQueue s) (s : State) :
    (eachLane f s).AgreesButQueue s :=
  (foldl_relates State.AgreesButQueue .refl (fun h k => State.AgreesButQueue.trans h k) _ (fun s l => hf l s) _ _).trans
    (spend_agrees s)

theorem eachLane_agreesAisle {f : LaneNo → State → State} (hf : ∀ l s, (f l s).AgreesButAisle s) (s : State) :
    (eachLane f s).AgreesButAisle s :=
  (foldl_relates State.AgreesButAisle .refl (fun h k => State.AgreesButAisle.trans h k) _ (fun s l => hf l s) _ _).trans
    (spend_agrees s).aisle

theorem eachGroup_agreesAisle {f : GroupNo → State → State} (hf : ∀ g s, (f g s).AgreesButAisle s) (s : State) :
    (eachGroup f s).AgreesButAisle s :=
  (foldl_relates State.AgreesButAisle .refl (fun h k => State.AgreesButAisle.trans h k) _ (fun s g => hf g s) _ _).trans
    (spend_agrees s).aisle

theorem inEitherOrder_agreesAisle {f g : State → State} (hf : ∀ s, (f s).AgreesButAisle s)
    (hg : ∀ s, (g s).AgreesButAisle s) (s : State) : (inEitherOrder f g s).AgreesButAisle s := by
  unfold inEitherOrder
  split
  · exact (hg _).trans ((hf _).trans (spend_agrees s).aisle)
  · exact (hf _).trans ((hg _).trans (spend_agrees s).aisle)

/-! ## The Transmit Queue -/

theorem setQueue_agrees (q : List Entry) (s : State) : State.AgreesButQueue { s with queue := q } s := rfl

theorem countRefusals_agrees (s : State) : (s.count .queueRefusals 1).AgreesButQueue s := rfl

theorem countEvictions_agrees (s : State) : (s.count .queueEvictions 1).AgreesButQueue s := rfl

theorem setReportDue_agrees (l : LaneNo) (b : Bool) (s : State) :
    (s.updateService l fun sv => { sv with reportDue := b }).AgreesButQueue s := by
  simp only [State.AgreesButQueue, State.queueView, State.updateService_station, State.updateService_engine,
    State.updateService_lanes, State.updateService_shock, State.updateService_line, State.updateService_peers,
    State.updateService_groups, State.updateService_reportTimer, State.updateService_rateTick, State.updateService_pending]
  rw [Four.map_set_of_eq]
  rfl

theorem offerOrRefuse_agrees (b : Body) (s : State) : (offerOrRefuse b s).2.AgreesButQueue s := by
  unfold offerOrRefuse
  split
  · rfl
  · split <;> rfl

theorem laneOffer_agrees (l : LaneNo) (s : State) : (laneOffer l s).AgreesButQueue s := by
  unfold laneOffer
  split
  · have h := offerOrRefuse_agrees (s.stockBody l) s
    split <;> rename_i heq <;> rw [heq] at h
    · exact (setReportDue_agrees l false _).trans h
    · exact h
  · exact .refl s

theorem laneReport_agrees (l : LaneNo) (s : State) : (laneReport l s).AgreesButQueue s :=
  (laneOffer_agrees l _).trans (setReportDue_agrees l true s)

theorem announceRoom_agrees (s : State) : (announceRoom s).AgreesButQueue s := eachLane_agrees laneOffer_agrees s

theorem surveySettled_agrees (s : State) : (surveySettled s).AgreesButQueue s := by
  unfold surveySettled State.AgreesButQueue State.queueView
  simp only [State.updateStation_station, State.updateStation_engine, State.updateStation_lanes, State.updateStation_shock,
    State.updateStation_line, State.updateStation_peers, State.updateStation_groups, State.updateStation_reportTimer,
    State.updateStation_rateTick, State.updateStation_pending]
  split <;> rename_i h <;> simp [h]

theorem tellEvicted_agrees (b : Body) (s : State) : (tellEvicted b s).AgreesButQueue s := by
  unfold tellEvicted
  split
  · exact laneReport_agrees _ s
  · exact surveySettled_agrees s
  all_goals exact .refl s

theorem offer_agrees (b : Body) (s : State) : (offer b s).AgreesButQueue s := by
  unfold offer
  split
  · rfl
  · split
    · rfl
    · split
      · exact (tellEvicted_agrees _ _).trans ((countEvictions_agrees _).trans (setQueue_agrees _ s))
      · exact countRefusals_agrees s

theorem offerSurvey_agrees (pairs : List (Word × Word)) (s : State) : (offerSurvey pairs s).AgreesButQueue s := by
  have h := offerOrRefuse_agrees (.survey pairs) s
  unfold offerSurvey
  split <;> rename_i heq <;> rw [heq] at h
  · exact h
  · exact (surveySettled_agrees _).trans h

theorem withdrawRaise_agrees (g : GroupNo) (s : State) : (withdrawRaise g s).AgreesButQueue s := by
  unfold withdrawRaise
  simp only
  split
  · exact (announceRoom_agrees _).trans (setQueue_agrees _ s)
  · rfl

theorem returnEntry_agrees (f : Entry → Entry) (s : State) : (returnEntry f s).AgreesButQueue s := by
  unfold returnEntry
  split
  · exact .refl s
  · split
    · exact (announceRoom_agrees _).trans (setQueue_agrees _ s)
    · rfl

theorem removeExpired_agrees (s : State) : (removeExpired s).AgreesButQueue s := by
  unfold removeExpired
  simp only
  split
  · exact (announceRoom_agrees _).trans (setQueue_agrees _ s)
  · exact .refl s

theorem notBeforeReached_agrees (s : State) : (notBeforeReached s).AgreesButQueue s := rfl

/-! ## The Alert Controller -/

theorem updateGroup_agrees (g : GroupNo) (f : Group → Group) (s : State) : (s.updateGroup g f).AgreesButAisle s := rfl

theorem updateAlert_agrees (g : GroupNo) (f : Alert → Alert) (s : State) : (s.updateAlert g f).AgreesButAisle s := rfl

theorem updateRecord_agrees (g : GroupNo) (f : GroupRecord → GroupRecord) (s : State) :
    (s.updateRecord g f).AgreesButAisle s := rfl

theorem onGroup_agrees {g : GroupNo} {event : Group → State → State} (h : ∀ gr s, (event gr s).AgreesButAisle s)
    (s : State) : (s.onGroup g event).AgreesButAisle s := by
  unfold State.onGroup
  split
  · exact h _ s
  · exact .refl s

theorem enterPending_agrees (g : GroupNo) (s : State) : (enterPending g s).AgreesButAisle s := by
  unfold enterPending
  exact onGroup_agrees (fun _ _ => (updateAlert_agrees g _ _).trans (draw_agrees 64 _).aisle) s

theorem pendingOrClear_agrees (g : GroupNo) (s : State) : (pendingOrClear g s).AgreesButAisle s :=
  onGroup_agrees (fun _ s => by
    split
    · exact enterPending_agrees g s
    · rfl) s

theorem testClear_agrees (g : GroupNo) (s : State) : (testClear g s).AgreesButAisle s :=
  onGroup_agrees (fun _ s => by
    split
    · exact enterPending_agrees g s
    · rfl) s

theorem offerRaise_agrees (g : GroupNo) (s : State) : (offerRaise g s).AgreesButAisle s :=
  onGroup_agrees (fun _ s => (offer_agrees _ s).aisle) s

theorem offerClear_agrees (g : GroupNo) (s : State) : (offerClear g s).AgreesButAisle s :=
  onGroup_agrees (fun _ s => (offer_agrees _ s).aisle) s

theorem withdrawRaise_agreesAisle (g : GroupNo) (s : State) : (withdrawRaise g s).AgreesButAisle s :=
  (withdrawRaise_agrees g s).aisle

theorem raisedReport_agrees (g : GroupNo) (gr : Group) (s : State) : (raisedReport g gr s).AgreesButAisle s := by
  unfold raisedReport
  split
  · exact .refl s
  · split
    · refine (withdrawRaise_agreesAisle g _).trans ((updateAlert_agrees g _ _).trans ?_)
      split
      · exact offerClear_agrees g s
      · exact .refl s
    · split
      · exact (offerRaise_agrees g _).trans (updateAlert_agrees g _ s)
      · exact .refl s

theorem alertReport_agrees (g : GroupNo) (s : State) : (alertReport g s).AgreesButAisle s :=
  onGroup_agrees (fun gr s => by
    split
    · exact testClear_agrees g s
    · split
      · exact .refl s
      · rfl
    · exact raisedReport_agrees g gr s
    · exact .refl s
    · split
      · exact .refl s
      · rfl
    · exact .refl s) s

theorem suspendAlert_agrees (g : GroupNo) (s : State) : (suspendAlert g s).AgreesButAisle s :=
  onGroup_agrees (fun gr s => by
    split
    · exact .refl s
    · exact (withdrawRaise_agreesAisle g _).trans (updateAlert_agrees g _ s)) s

theorem resumeAlert_agrees (g : GroupNo) (s : State) : (resumeAlert g s).AgreesButAisle s :=
  onGroup_agrees (fun gr s => by
    split
    · exact (testClear_agrees g _).trans (updateAlert_agrees g _ s)
    · exact .refl s) s

theorem deferenceExpired_agrees (g : GroupNo) (gr : Group) (s : State) : (deferenceExpired g gr s).AgreesButAisle s := by
  unfold deferenceExpired
  split
  · rfl
  · split
    · exact enterPending_agrees g s
    · exact (offerRaise_agrees g _).trans (updateAlert_agrees g _ s)

theorem repeatRaise_agrees (g : GroupNo) (s : State) : (repeatRaise g s).AgreesButAisle s :=
  (offerRaise_agrees g _).trans (updateAlert_agrees g _ s)

theorem raiseSentOutcome_agrees (g : GroupNo) (s : State) : (raiseSentOutcome g s).AgreesButAisle s :=
  onGroup_agrees (fun gr s => by
    split
    · rfl
    · exact offerClear_agrees g s
    all_goals exact .refl s) s

theorem raiseDiscardedOutcome_agrees (g : GroupNo) (s : State) : (raiseDiscardedOutcome g s).AgreesButAisle s :=
  onGroup_agrees (fun gr s => by
    split
    · refine (withdrawRaise_agreesAisle g _).trans ?_
      split
      · exact enterPending_agrees g s
      · rfl
    · exact .refl s) s

theorem raiseHeard_agrees (g : GroupNo) (sender : Nat) (level : Shortage) (s : State) :
    (raiseHeard g sender level s).AgreesButAisle s :=
  onGroup_agrees (fun gr s => by
    split
    · rfl
    · rfl
    · rfl
    · rfl
    · rfl
    · split
      · exact (withdrawRaise_agreesAisle g _).trans (updateAlert_agrees g _ s)
      · exact repeatRaise_agrees g s) s

theorem clearHeard_agrees (g : GroupNo) (sender : Nat) (s : State) : (clearHeard g sender s).AgreesButAisle s :=
  onGroup_agrees (fun gr s => by
    split
    · exact (testClear_agrees g _).trans (updateAlert_agrees g _ s)
    · exact .refl s) s

theorem alertListenOnly_agrees (g : GroupNo) (s : State) : (alertListenOnly g s).AgreesButAisle s :=
  onGroup_agrees (fun gr s => by
    split
    · exact (withdrawRaise_agreesAisle g _).trans (updateAlert_agrees g _ s)
    · exact .refl s) s

/-! ## The Group Evaluator -/

theorem suspensionReport_agrees (g : GroupNo) (b a : GroupRecord) (s : State) :
    (suspensionReport g b a s).AgreesButAisle s := by
  unfold suspensionReport
  split
  · exact .refl s
  · split
    · exact suspendAlert_agrees g s
    · exact resumeAlert_agrees g s

theorem levelReport_agrees (g : GroupNo) (b a : GroupRecord) (s : State) : (levelReport g b a s).AgreesButAisle s := by
  unfold levelReport
  split
  · exact .refl s
  · exact alertReport_agrees g s

theorem evaluate_agrees (g : GroupNo) (s : State) : (evaluate g s).AgreesButAisle s :=
  onGroup_agrees (fun _ s =>
    (levelReport_agrees g _ _ _).trans ((suspensionReport_agrees g _ _ _).trans (updateRecord_agrees g _ s))) s

theorem setMembership_agrees (g : GroupNo) (s : State) : (setMembership g s).AgreesButAisle s := rfl

theorem groupTakesLane_agrees (article : Word) (moves : Bool) (g : GroupNo) (s : State) :
    (groupTakesLane article moves g s).AgreesButAisle s :=
  onGroup_agrees (fun _ s => by
    split
    · refine (evaluate_agrees g _).trans ?_
      split
      · exact setMembership_agrees g s
      · exact .refl s
    · exact .refl s) s

theorem groupsTakeLane_agrees (l : LaneNo) (before : Lane) (s : State) : (groupsTakeLane l before s).AgreesButAisle s := by
  unfold groupsTakeLane
  simp only
  split
  · exact eachGroup_agreesAisle (groupTakesLane_agrees _ _) s
  · exact .refl s

theorem laneSettled_agrees (force : Bool) (l : LaneNo) (before : Lane) (s : State) :
    (laneSettled force l before s).AgreesButAisle s := by
  refine inEitherOrder_agreesAisle (fun s => ?_) (groupsTakeLane_agrees l before) s
  split
  · exact (laneReport_agrees l s).aisle
  · exact .refl s

/-- A change of a lane does to the rest of the machine what a report and the evaluations can do, and nothing else. -/
theorem changeLane_agrees (l : LaneNo) (f : Lane → Lane) (s : State) :
    (changeLane l f s).AgreesButAisle (s.updateLane l f) := laneSettled_agrees false l _ _

theorem groupTakesNotice_agrees (b a : Option PeerEntry) (g : GroupNo) (s : State) :
    (groupTakesNotice b a g s).AgreesButAisle s :=
  onGroup_agrees (fun _ s => by
    dsimp only
    split
    · refine (evaluate_agrees g _).trans ?_
      split
      · exact setMembership_agrees g s
      · exact .refl s
    · exact .refl s) s

theorem notice_agrees (b a : Option PeerEntry) (s : State) : (notice b a s).AgreesButAisle s :=
  eachGroup_agreesAisle (groupTakesNotice_agrees b a) s

theorem groupRateTick_agrees (g : GroupNo) (s : State) : (groupRateTick g s).AgreesButAisle s :=
  (evaluate_agrees g _).trans (updateGroup_agrees g _ s)

end Sys2Proof.Machine
end

