-- ==== Sys2Proof/Laws/Frames.lean ====
section
/-! SUPPORT. A relation between the state after and the state before that holds of the simplest changes, and of one change after another,
holds of every shared operation that is made of them. -/

namespace Sys2Proof.Machine

/-! ## The aisle: queue, owners' notices and groups -/

/-- A relation that the simplest changes of the Transmit Queue, of its owners' notices and of the groups keep. -/
structure AisleFrame (R : State → State → Prop) : Prop where
  refl : ∀ s, R s s
  trans : ∀ {a b c}, R a b → R b c → R a c
  spend : ∀ s : State, R s.spend s
  coalesced : ∀ (b : Body) (s : State), (s.queue.any fun e => e.waitsFor b.identity) = true →
    R { s with queue := coalesceInto b s.now s.queue } s
  appended : ∀ (b : Body) (s : State), (s.queue.any fun e => e.waitsFor b.identity) = false → s.queue.length < 8 →
    R { s with queue := s.queue ++ [Entry.new b s.now] } s
  evicted : ∀ (b : Body) (v : Entry) (rest : List Entry) (s : State), (s.queue.any fun e => e.waitsFor b.identity) = false →
    victim b.priority s.queue = some (v, rest) → R { s with queue := rest ++ [Entry.new b s.now] } s
  withdrawn : ∀ (g : GroupNo) (s : State),
    R { s with queue := (markWithdrawn g s.queue).filter fun e => !e.waitingRaise g } s
  counted : ∀ (name : CounterName) (k : Nat) (s : State), R (s.count name k) s
  reportDue : ∀ (l : LaneNo) (b : Bool) (s : State), R (s.updateService l fun sv => { sv with reportDue := b }) s
  survey : ∀ s : State, R (surveySettled s) s
  group : ∀ (g : GroupNo) (f : Group → Group) (s : State), R (s.updateGroup g f) s

/-- A relation that any change of the queue's entries keeps as well. -/
structure FreeFrame (R : State → State → Prop) : Prop extends AisleFrame R where
  queue : ∀ (q : List Entry) (s : State), R { s with queue := q } s

namespace AisleFrame

variable {R : State → State → Prop}

theorem eachLane (F : AisleFrame R) {f : LaneNo → State → State} (hf : ∀ l s, R (f l s) s) (s : State) : R (eachLane f s) s :=
  F.trans (foldl_relates R F.refl F.trans _ (fun s l => hf l s) _ _) (F.spend s)

theorem eachGroup (F : AisleFrame R) {f : GroupNo → State → State} (hf : ∀ g s, R (f g s) s) (s : State) : R (eachGroup f s) s :=
  F.trans (foldl_relates R F.refl F.trans _ (fun s g => hf g s) _ _) (F.spend s)

theorem eitherOrder (F : AisleFrame R) {f g : State → State} (hf : ∀ s, R (f s) s) (hg : ∀ s, R (g s) s) (s : State) :
    R (inEitherOrder f g s) s := by
  unfold inEitherOrder
  split
  · exact F.trans (hg _) (F.trans (hf _) (F.spend s))
  · exact F.trans (hf _) (F.trans (hg _) (F.spend s))

theorem offerOrRefuse (F : AisleFrame R) (b : Body) (s : State) : R (offerOrRefuse b s).2 s := by
  unfold Machine.offerOrRefuse
  split
  · next h => exact F.coalesced b s h
  · next h =>
    split
    · next hl => exact F.appended b s (Bool.eq_false_iff.mpr h) hl
    · exact F.counted _ _ s

theorem laneOffer (F : AisleFrame R) (l : LaneNo) (s : State) : R (laneOffer l s) s := by
  unfold Machine.laneOffer
  split
  · have h := F.offerOrRefuse (s.stockBody l) s
    split
    · next t ht => rw [ht] at h; exact F.trans (F.reportDue l false t) h
    · next t ht => rw [ht] at h; exact h
  · exact F.refl s

theorem laneReport (F : AisleFrame R) (l : LaneNo) (s : State) : R (laneReport l s) s :=
  F.trans (F.laneOffer l _) (F.reportDue l true s)

theorem announceRoom (F : AisleFrame R) (s : State) : R (announceRoom s) s := F.eachLane F.laneOffer s

theorem tellEvicted (F : AisleFrame R) (b : Body) (s : State) : R (tellEvicted b s) s := by
  cases b with
  | stock lane article pack count state confidence => exact F.laneReport lane s
  | survey pairs => exact F.survey s
  | disturb zone hold => exact F.refl s
  | raise group key mask level quality aggregate reorder => exact F.refl s
  | clear group key mask => exact F.refl s
  | status => exact F.refl s

theorem offer (F : AisleFrame R) (b : Body) (s : State) : R (offer b s) s := by
  unfold Machine.offer
  split
  · next h => exact F.coalesced b s h
  · next h =>
    split
    · next hl => exact F.appended b s (Bool.eq_false_iff.mpr h) hl
    · split
      · next v rest hv =>
        exact F.trans (F.tellEvicted _ _) (F.trans (F.counted _ _ _) (F.evicted b v rest s (Bool.eq_false_iff.mpr h) hv))
      · exact F.counted _ _ s

theorem offerSurvey (F : AisleFrame R) (pairs : List (Word × Word)) (s : State) : R (offerSurvey pairs s) s := by
  unfold Machine.offerSurvey
  have h := F.offerOrRefuse (.survey pairs) s
  split
  · next t ht => rw [ht] at h; exact h
  · next t ht => rw [ht] at h; exact F.trans (F.survey t) h

theorem withdrawRaise (F : AisleFrame R) (g : GroupNo) (s : State) : R (withdrawRaise g s) s := by
  unfold Machine.withdrawRaise
  dsimp only
  split
  · exact F.trans (F.announceRoom _) (F.withdrawn g s)
  · next h =>
    have e : (markWithdrawn g s.queue).filter (fun e => !e.waitingRaise g) = markWithdrawn g s.queue := by
      refine List.filter_eq_self.mpr fun x hx => ?_
      cases hw : x.waitingRaise g with
      | false => rfl
      | true => exact absurd (List.any_eq_true.mpr ⟨x, hx, hw⟩) h
    have w := F.withdrawn g s
    rw [e] at w
    exact w

theorem updateAlert (F : AisleFrame R) (g : GroupNo) (f : Alert → Alert) (s : State) : R (s.updateAlert g f) s := F.group g _ s

theorem updateRecord (F : AisleFrame R) (g : GroupNo) (f : GroupRecord → GroupRecord) (s : State) : R (s.updateRecord g f) s :=
  F.group g _ s

theorem onGroup (F : AisleFrame R) {g : GroupNo} {event : Group → State → State} (h : ∀ gr s, R (event gr s) s) (s : State) :
    R (s.onGroup g event) s := by
  unfold State.onGroup
  split
  · exact h _ s
  · exact F.refl s

theorem enterPending (F : AisleFrame R) (g : GroupNo) (s : State) : R (enterPending g s) s :=
  F.onGroup (fun _ s => F.trans (F.updateAlert g _ _) (F.spend s)) s

theorem pendingOrClear (F : AisleFrame R) (g : GroupNo) (s : State) : R (pendingOrClear g s) s :=
  F.onGroup (fun _ s => by
    split
    · exact F.enterPending g s
    · exact F.updateAlert g _ s) s

theorem testClear (F : AisleFrame R) (g : GroupNo) (s : State) : R (testClear g s) s :=
  F.onGroup (fun _ s => by
    split
    · exact F.enterPending g s
    · exact F.refl s) s

theorem offerRaise (F : AisleFrame R) (g : GroupNo) (s : State) : R (offerRaise g s) s := F.onGroup (fun _ s => F.offer _ s) s

theorem offerClear (F : AisleFrame R) (g : GroupNo) (s : State) : R (offerClear g s) s := F.onGroup (fun _ s => F.offer _ s) s

theorem raisedReport (F : AisleFrame R) (g : GroupNo) (gr : Group) (s : State) : R (raisedReport g gr s) s := by
  unfold Machine.raisedReport
  split
  · exact F.refl s
  · split
    · refine F.trans (F.withdrawRaise g _) (F.trans (F.updateAlert g _ _) ?_)
      split
      · exact F.offerClear g s
      · exact F.refl s
    · split
      · exact F.trans (F.offerRaise g _) (F.updateAlert g _ s)
      · exact F.refl s

theorem alertReport (F : AisleFrame R) (g : GroupNo) (s : State) : R (alertReport g s) s :=
  F.onGroup (fun gr s => by
    split
    · exact F.testClear g s
    · split
      · exact F.refl s
      · exact F.updateAlert g _ s
    · exact F.raisedReport g gr s
    · exact F.refl s
    · split
      · exact F.refl s
      · exact F.updateAlert g _ s
    · exact F.refl s) s

theorem suspendAlert (F : AisleFrame R) (g : GroupNo) (s : State) : R (suspendAlert g s) s :=
  F.onGroup (fun _ s => by
    split
    · exact F.refl s
    · exact F.trans (F.withdrawRaise g _) (F.updateAlert g _ s)) s

theorem resumeAlert (F : AisleFrame R) (g : GroupNo) (s : State) : R (resumeAlert g s) s :=
  F.onGroup (fun _ s => by
    split
    · exact F.trans (F.testClear g _) (F.updateAlert g _ s)
    · exact F.refl s) s

theorem deferenceExpired (F : AisleFrame R) (g : GroupNo) (gr : Group) (s : State) : R (deferenceExpired g gr s) s := by
  unfold Machine.deferenceExpired
  split
  · exact F.updateAlert g _ s
  · split
    · exact F.enterPending g s
    · exact F.trans (F.offerRaise g _) (F.updateAlert g _ s)

theorem repeatRaise (F : AisleFrame R) (g : GroupNo) (s : State) : R (repeatRaise g s) s :=
  F.trans (F.offerRaise g _) (F.updateAlert g _ s)

theorem raiseSentOutcome (F : AisleFrame R) (g : GroupNo) (s : State) : R (raiseSentOutcome g s) s :=
  F.onGroup (fun _ s => by
    split
    · exact F.updateAlert g _ s
    · exact F.offerClear g s
    all_goals exact F.refl s) s

theorem raiseDiscardedOutcome (F : AisleFrame R) (g : GroupNo) (s : State) : R (raiseDiscardedOutcome g s) s :=
  F.onGroup (fun _ s => by
    split
    · refine F.trans (F.withdrawRaise g _) ?_
      split
      · exact F.enterPending g s
      · exact F.updateAlert g _ s
    · exact F.refl s) s

theorem raiseHeard (F : AisleFrame R) (g : GroupNo) (sender : Nat) (level : Shortage) (s : State) :
    R (raiseHeard g sender level s) s :=
  F.onGroup (fun _ s => by
    dsimp only
    split
    · exact F.updateAlert g _ s
    · exact F.updateAlert g _ s
    · exact F.updateAlert g _ s
    · exact F.refl s
    · exact F.refl s
    · split
      · exact F.trans (F.withdrawRaise g _) (F.updateAlert g _ s)
      · exact F.repeatRaise g s) s

theorem clearHeard (F : AisleFrame R) (g : GroupNo) (sender : Nat) (s : State) : R (clearHeard g sender s) s :=
  F.onGroup (fun _ s => by
    split
    · exact F.trans (F.testClear g _) (F.updateAlert g _ s)
    · exact F.refl s) s

theorem takeHeard (F : AisleFrame R) (g : GroupNo) (terminal : Byte) (minutes : Nat) (s : State) :
    R (takeHeard g terminal minutes s) s :=
  F.onGroup (fun _ s => by
    dsimp only
    split
    · exact F.trans (F.withdrawRaise g _) (F.updateAlert g _ s)
    · exact F.trans (F.withdrawRaise g _) (F.updateAlert g _ s)
    · exact F.trans (F.withdrawRaise g _) (F.updateAlert g _ s)
    · exact F.updateAlert g _ s
    · exact F.counted _ _ s
    · exact F.counted _ _ s) s

theorem releaseHeard (F : AisleFrame R) (g : GroupNo) (terminal : Byte) (s : State) : R (releaseHeard g terminal s) s :=
  F.onGroup (fun _ s => by
    split
    · exact F.pendingOrClear g s
    · exact F.counted _ _ s) s

theorem alertListenOnly (F : AisleFrame R) (g : GroupNo) (s : State) : R (alertListenOnly g s) s :=
  F.onGroup (fun _ s => by
    split
    · exact F.trans (F.withdrawRaise g _) (F.updateAlert g _ s)
    · exact F.refl s) s

theorem evaluate (F : AisleFrame R) (g : GroupNo) (s : State) : R (evaluate g s) s := by
  refine F.onGroup (fun gr s => ?_) s
  dsimp only
  have hs : R (suspensionReport g gr.record (gr.record.evaluated (s.holders gr.record.key gr.record.mask))
      (s.updateRecord g fun _ => gr.record.evaluated (s.holders gr.record.key gr.record.mask))) s := by
    refine F.trans ?_ (F.updateRecord g (fun _ => gr.record.evaluated (s.holders gr.record.key gr.record.mask)) s)
    unfold suspensionReport
    split
    · exact F.refl _
    · split
      · exact F.suspendAlert g _
      · exact F.resumeAlert g _
  refine F.trans ?_ hs
  unfold levelReport
  split
  · exact F.refl _
  · exact F.alertReport g _

theorem groupTakesLane (F : AisleFrame R) (article : Word) (moves : Bool) (g : GroupNo) (s : State) :
    R (groupTakesLane article moves g s) s :=
  F.onGroup (fun _ s => by
    split
    · refine F.trans (F.evaluate g _) ?_
      split
      · exact F.updateRecord g _ s
      · exact F.refl s
    · exact F.refl s) s

theorem laneSettled (F : AisleFrame R) (force : Bool) (l : LaneNo) (before : Lane) (s : State) :
    R (laneSettled force l before s) s := by
  refine F.eitherOrder (fun s => ?_) (fun s => ?_) s
  · split
    · exact F.laneReport l s
    · exact F.refl s
  · unfold groupsTakeLane
    dsimp only
    split
    · exact F.eachGroup (F.groupTakesLane _ _) s
    · exact F.refl s

theorem changeLane (F : AisleFrame R) (l : LaneNo) (f : Lane → Lane) (s : State) : R (changeLane l f s) (s.updateLane l f) :=
  F.laneSettled false l (s.lane l) (s.updateLane l f)

theorem notice (F : AisleFrame R) (before after : Option PeerEntry) (s : State) : R (notice before after s) s := by
  refine F.eachGroup (fun g s => F.onGroup (fun _ s => ?_) s) s
  dsimp only
  split
  · refine F.trans (F.evaluate g _) ?_
    split
    · exact F.updateRecord g _ s
    · exact F.refl s
  · exact F.refl s

theorem groupRateTick (F : AisleFrame R) (g : GroupNo) (s : State) : R (groupRateTick g s) s :=
  F.trans (F.evaluate g _) (F.group g _ s)

end AisleFrame

namespace FreeFrame

variable {R : State → State → Prop}

theorem returnEntry (F : FreeFrame R) (f : Entry → Entry) (s : State) : R (returnEntry f s) s := by
  unfold Machine.returnEntry
  split
  · exact F.refl s
  · split
    · exact F.trans (F.announceRoom _) (F.queue _ s)
    · exact F.queue _ s

theorem removeExpired (F : FreeFrame R) (s : State) : R (removeExpired s) s := by
  unfold Machine.removeExpired
  dsimp only
  split
  · exact F.trans (F.announceRoom _) (F.queue _ s)
  · exact F.refl s

end FreeFrame

/-! ## The lanes -/

/-- A relation that the simplest changes of the lanes and of what they feed keep as well. -/
structure LaneFrame (R : State → State → Prop) : Prop extends AisleFrame R where
  lane : ∀ (l : LaneNo) (f : Lane → Lane) (s : State), R (s.updateLane l f) s
  allWeighing : ∀ (f : Weighing → Weighing) (s : State), R (s.updateAllWeighing f) s
  shock : ∀ (f : ShockMonitor → ShockMonitor) (s : State), R (s.updateShock f) s
  drifted : ∀ (l : LaneNo) (s : State), R (s.noteDrift l) s

namespace LaneFrame

variable {R : State → State → Prop}

theorem service (F : LaneFrame R) (l : LaneNo) (f : Service → Service) (s : State) : R (s.updateService l f) s := F.lane l _ s

theorem weighing (F : LaneFrame R) (l : LaneNo) (f : Weighing → Weighing) (s : State) : R (s.updateWeighing l f) s := F.lane l _ s

theorem changed (F : LaneFrame R) (l : LaneNo) (f : Lane → Lane) (s : State) : R (changeLane l f s) s :=
  F.trans (F.changeLane l f s) (F.lane l f s)

theorem laneFaults (F : LaneFrame R) (l : LaneNo) (s : State) : R (laneFaults l s) s := by
  unfold Machine.laneFaults
  split
  · exact F.changed l _ s
  · exact F.refl s

theorem testFault (F : LaneFrame R) (l : LaneNo) (s : State) : R (testFault l s) s := by
  unfold Machine.testFault
  split
  · exact F.changed l _ s
  · exact F.refl s

theorem laneBrownOutEnd (F : LaneFrame R) (l : LaneNo) (s : State) : R (laneBrownOutEnd l s) s := by
  unfold Machine.laneBrownOutEnd
  split
  · exact F.changed l _ s
  · exact F.changed l _ s
  all_goals exact F.refl s

theorem shortPress (F : LaneFrame R) (l : LaneNo) (s : State) : R (shortPress l s) s := by
  unfold Machine.shortPress
  split
  · exact F.refl s
  · split
    · exact F.service l _ s
    · exact F.changed l _ s
  · split
    · exact F.service l _ s
    · exact F.changed l _ s
  all_goals exact F.service l _ s

theorem longPressTaken (F : LaneFrame R) (l : LaneNo) (s : State) : R (longPressTaken l s) s := by
  unfold Machine.longPressTaken
  split
  · exact F.refl s
  · split
    · exact F.service l _ s
    · split
      · exact F.trans (F.laneSettled _ l _ _) (F.lane l _ s)
      · exact F.service l _ s
  all_goals exact F.service l _ s

theorem applyCandidate (F : LaneFrame R) (candidate : Time) (s : State) : R (applyCandidate candidate s) s := by
  have h : R (setHoldoff candidate s) s := F.trans (F.allWeighing _ _) (F.shock _ s)
  unfold Machine.applyCandidate
  split
  · exact h
  · split
    · exact h
    · exact F.refl s

theorem shockReported (F : LaneFrame R) (s : State) : R (shockReported s) s := by
  refine F.trans ?_ (F.applyCandidate (s.now.addMs s.shock.holdMs) s)
  unfold Machine.shockReported
  unfold disturbOffer
  split
  · exact F.trans (F.offer _ _) (F.shock _ _)
  · exact F.refl _

theorem settlementArrives (F : LaneFrame R) (l : LaneNo) (level : Int) (isOver : Bool) (s : State) :
    R (settlementArrives l level isOver s) s := by
  unfold Machine.settlementArrives
  dsimp only
  split
  · refine F.trans (F.changed l _ _) ?_
    refine F.trans (b := if (settlement (s.laneSettings l) (s.lane l).counter level isOver).drifted then s.noteDrift l else s) ?_ ?_
    · unfold countSettlement
      dsimp only
      split_ifs <;>
        first
        | exact F.refl _
        | exact F.counted _ _ _
        | exact F.trans (F.counted _ _ _) (F.counted _ _ _)
        | exact F.trans (F.counted _ _ _) (F.trans (F.counted _ _ _) (F.counted _ _ _))
    · split
      · exact F.drifted l s
      · exact F.refl s
  · exact F.refl s

theorem takeSample (F : LaneFrame R) (l : LaneNo) (g : Weight) (s : State) : R (takeSample l g s) s := by
  unfold Machine.takeSample
  split
  · unfold shockSample enterFilter
    exact F.trans (F.weighing l _ _) (F.trans (F.weighing l _ _) (F.trans (F.weighing l _ _) (F.shockReported s)))
  · have h : R (enterFilter l g (s.updateWeighing l fun w => { w with previousGross := some g.grams })) s :=
      F.trans (F.weighing l _ _) (F.weighing l _ s)
    unfold quietSample
    dsimp only
    split
    · refine F.trans ?_ h
      unfold takeFiltered
      split
      · exact F.refl _
      · dsimp only
        split
        · exact F.trans (F.settlementArrives l _ _ _) (F.weighing l _ _)
        · exact F.weighing l _ _
    · exact h

theorem deliverRound (F : LaneFrame R) (l : LaneNo) (s : State) : R (deliverRound l s) s := by
  unfold Machine.deliverRound
  dsimp only
  split
  · exact F.trans (F.takeSample l _ _) (F.testFault l s)
  · exact F.testFault l s

theorem nameLane (F : LaneFrame R) (l : LaneNo) (s : State) : R (nameLane l s) s := by
  unfold Machine.nameLane
  split
  · exact F.refl s
  · split
    · exact F.laneReport l s
    · split
      · exact F.refl s
      · exact F.service l _ s

theorem surveyHeard (F : LaneFrame R) (pairs : List (Word × Word)) (s : State) : R (surveyHeard pairs s) s := by
  refine F.eachLane (fun l s => ?_) s
  split
  · exact F.nameLane l s
  · exact F.refl s

theorem disturbHeard (F : LaneFrame R) (zone : Byte) (hold : Nat) (s : State) : R (disturbHeard zone hold s) s := by
  unfold Machine.disturbHeard
  split
  · exact F.applyCandidate _ s
  · exact F.refl s

end LaneFrame

/-! ## The Peer View -/

/-- A relation that a change of the Peer Stock Table keeps as well. -/
structure PeerFrame (R : State → State → Prop) : Prop extends AisleFrame R where
  peers : ∀ (p : List PeerEntry) (s : State), R { s with peers := p } s

namespace PeerFrame

variable {R : State → State → Prop}

theorem takeReport (F : PeerFrame R) (e : PeerEntry) (s : State) : R (takeReport e s) s := by
  have insert : ∀ s, R (insertReport e s) s := fun s => F.trans (F.notice _ _ _) (F.peers _ s)
  unfold Machine.takeReport
  split
  · unfold overwriteReport
    dsimp only
    split
    · exact F.peers _ s
    · exact F.trans (F.notice _ _ _) (F.peers _ s)
  · split
    · exact insert s
    · split
      · unfold replaceReport
        exact F.trans (F.notice _ _ _) (F.trans (F.notice _ _ _) (F.peers _ s))
      · exact F.counted _ _ s

theorem ageEntry (F : PeerFrame R) (sender : Nat) (lane : LaneNo) (s : State) : R (ageEntry sender lane s) s := by
  unfold Machine.ageEntry
  split
  · exact F.refl s
  · split
    · exact F.trans (F.notice _ _ _) (F.peers _ s)
    · exact F.refl s

theorem forgetEntry (F : PeerFrame R) (sender : Nat) (lane : LaneNo) (s : State) : R (forgetEntry sender lane s) s := by
  unfold Machine.forgetEntry
  split
  · exact F.refl s
  · split
    · exact F.trans (F.notice _ _ _) (F.peers _ s)
    · exact F.refl s

end PeerFrame

/-! ## The sensor bus -/

/-- A relation that the simplest changes of the Acquisition Engine, and a latched flag and a new seed in Station Control, keep as well. -/
structure BusFrame (R : State → State → Prop) : Prop extends LaneFrame R where
  engine : ∀ (f : Engine → Engine) (s : State), R (s.updateEngine f) s
  latched : ∀ (name : FlagName) (s : State), R (s.latch name) s
  seeded : ∀ (raw : Int) (s : State), R (seedFrom raw s) s

namespace BusFrame

variable {R : State → State → Prop}

theorem changeChannel (F : BusFrame R) (c : ChannelNo) (f : Channel → Channel) (s : State) : R (changeChannel c f s) s := by
  have h : R (s.updateChannel c f) s := F.engine (fun e => { e with channels := e.channels.set c (f (e.channels.get c)) }) s
  refine F.trans ?_ h
  unfold Machine.changeChannel reportChannel
  dsimp only
  split
  · exact foldl_relates R F.refl F.trans _ (fun s l => F.laneFaults l s) _ _
  · split
    · exact foldl_relates R F.refl F.trans _ (fun s l => F.testFault l s) _ _
    · exact F.refl _

theorem recordFailure (F : BusFrame R) (c : ChannelNo) (s : State) : R (recordFailure c s) s :=
  F.trans (F.changeChannel c _ _) (F.counted _ _ s)

theorem recordEnd (F : BusFrame R) (c : ChannelNo) (result : ConverterEnd) (s : State) : R (recordEnd c result s) s := by
  unfold Machine.recordEnd
  split
  · exact F.recordFailure c s
  · split
    · exact F.trans (F.changeChannel c _ _) (F.seeded _ s)
    · exact F.recordFailure c s

theorem deliverResults (F : BusFrame R) (s : State) : R (deliverResults s) s :=
  F.trans (F.engine _ _) (F.eachLane F.deliverRound s)

theorem startRound (F : BusFrame R) (dataHigh : Bool) (s : State) : R (startRound dataHigh s) s := by
  unfold Machine.startRound
  split
  · exact F.engine _ s
  · exact F.deliverResults s

theorem endRound (F : BusFrame R) (dataHigh : Bool) (s : State) : R (endRound dataHigh s) s := by
  have h : R (Machine.deliverResults (endTransaction s)) s := F.trans (F.deliverResults _) (F.engine _ s)
  unfold Machine.endRound
  dsimp only
  split
  · exact F.trans (F.startRound dataHigh _) (F.trans (F.engine _ _) h)
  · exact h

theorem nextChannel (F : BusFrame R) (c : ChannelNo) (dataHigh : Bool) (s : State) : R (nextChannel c dataHigh s) s := by
  unfold Machine.nextChannel
  split
  · exact F.engine _ s
  · exact F.endRound dataHigh s

theorem stuckRound (F : BusFrame R) (channels : List ChannelNo) (dataHigh : Bool) (s : State) :
    R (stuckRound channels dataHigh s) s :=
  F.trans (F.endRound dataHigh _)
    (F.trans (F.latched _ _) (foldl_relates R F.refl F.trans _ (fun s c => F.recordFailure c s) _ s))

theorem takeTick (F : BusFrame R) (tick : Time) (dataHigh : Bool) (s : State) : R (takeTick tick dataHigh s) s := by
  unfold Machine.takeTick
  dsimp only
  split
  · exact F.engine _ s
  · split
    · exact F.trans (F.counted _ _ _) (F.trans (F.engine _ _) (F.engine _ s))
    · exact F.trans (F.startRound dataHigh _) (F.engine _ s)

end BusFrame

/-! ## The line -/

/-- A relation that the simplest changes of the Line Controller, and a latched flag and the note of a line error, keep as well. -/
structure LineFrame (R : State → State → Prop) : Prop extends FreeFrame R where
  line : ∀ (f : LineController → LineController) (s : State), R (s.updateLine f) s
  latched : ∀ (name : FlagName) (s : State), R (s.latch name) s
  noted : ∀ s : State, R (s.updateStation fun st => { st with notes := { st.notes with errorCode := true } }) s

namespace LineFrame

variable {R : State → State → Prop}

theorem checkLineState (F : LineFrame R) (s : State) : R (checkLineState s) s := by
  unfold Machine.checkLineState
  split
  · split
    · exact F.trans (F.eachGroup F.alertListenOnly _) (F.trans (F.latched _ _) (F.line _ s))
    · exact F.refl s
  · split
    · exact F.line _ s
    · exact F.refl s

theorem raiseTec (F : LineFrame R) (s : State) : R (raiseTec s) s := F.trans (F.checkLineState _) (F.line _ s)

theorem lowerTec (F : LineFrame R) (s : State) : R (lowerTec s) s := F.trans (F.checkLineState _) (F.line _ s)

theorem raiseRec (F : LineFrame R) (s : State) : R (raiseRec s) s := F.trans (F.checkLineState _) (F.line _ s)

theorem lowerRec (F : LineFrame R) (s : State) : R (lowerRec s) s := F.trans (F.checkLineState _) (F.line _ s)

theorem lineError (F : LineFrame R) (code : LineError) (s : State) : R (lineError code s) s :=
  F.trans (F.raiseRec _) (F.trans (F.counted _ _ _) (F.trans (F.line _ _) (F.trans (F.noted _) (F.line _ s))))

theorem framingFaultSeen (F : LineFrame R) (s : State) : R (framingFaultSeen s) s := by
  unfold Machine.framingFaultSeen
  split
  · exact F.trans (F.lineError _ _) (F.line _ s)
  · exact F.trans (F.line _ _) (F.line _ s)
  · unfold foreignLow
    split
    · exact F.line _ s
    · exact F.refl s
  · exact F.refl s

theorem breakSeen (F : LineFrame R) (s : State) : R (breakSeen s) s := by
  unfold Machine.breakSeen
  split
  · exact F.trans (F.line _ _) (F.line _ s)
  · exact F.trans (F.line _ _) (F.line _ s)
  · unfold foreignLow
    split
    · exact F.line _ s
    · exact F.refl s
  · exact F.refl s

theorem tellDiscarded (F : LineFrame R) (b : Body) (s : State) : R (tellDiscarded b s) s := by
  cases b with
  | stock lane article pack count state confidence => exact F.laneReport lane s
  | survey pairs => exact F.survey s
  | disturb zone hold => exact F.refl s
  | raise group key mask level quality aggregate reorder => exact F.raiseDiscardedOutcome group s
  | clear group key mask => exact F.refl s
  | status => exact F.refl s

theorem removeOnLine (F : LineFrame R) {tell : State → State} (h : ∀ s, R (tell s) s) (s : State) : R (removeOnLine tell s) s :=
  F.trans (F.eitherOrder h F.announceRoom _) (F.queue _ s)

theorem jamEnds (F : LineFrame R) (ended : Time) (s : State) : R (jamEnds ended s) s := by
  unfold Machine.jamEnds
  split
  · exact F.line _ s
  · split
    · exact F.trans (F.trans (F.returnEntry _ _) (F.spend _)) (F.line _ s)
    · exact F.trans (F.eitherOrder F.raiseTec (F.removeOnLine (F.tellDiscarded _)) _) (F.trans (F.counted _ _ _) (F.line _ s))

theorem abandonAttempt (F : LineFrame R) (s : State) : R (abandonAttempt s) s := by
  unfold Machine.abandonAttempt
  split
  · exact F.refl s
  · split
    · exact F.trans (F.returnEntry _ _) (F.line _ s)
    · exact F.jamEnds _ s

theorem stuckExpires (F : LineFrame R) (since : Time) (s : State) : R (stuckExpires since s) s :=
  F.trans (F.raiseTec _) (F.trans (F.latched _ _) (F.line _ s))

theorem secondPasses (F : LineFrame R) (expiry : Time) (s : State) : R (secondPasses expiry s) s :=
  F.trans (F.lowerTec _) (F.line _ s)

theorem frameIsSent (F : LineFrame R) (h : ∀ s, R (statusReduction s) s) (s : State) : R (frameIsSent s) s := by
  have tell : ∀ b s, R (tellSent b s) s := by
    intro b s
    cases b with
    | stock lane article pack count state confidence => exact F.refl s
    | survey pairs => exact F.survey s
    | disturb zone hold => exact F.refl s
    | raise group key mask level quality aggregate reorder => exact F.raiseSentOutcome group s
    | clear group key mask => exact F.refl s
    | status => exact h s
  unfold Machine.frameIsSent
  dsimp only
  split
  · exact F.trans (F.line _ _) (F.lowerTec s)
  · refine F.trans (F.removeOnLine (tell _) _) (F.trans (F.line _ _) (F.trans ?_ (F.lowerTec s)))
    unfold countCollisions
    split
    · exact F.counted _ _ _
    · split
      · exact F.counted _ _ _
      · exact F.refl _

end LineFrame

end Sys2Proof.Machine
end

