-- ==== Sys2Proof/Laws/Time.lean ====
section
/-! SUPPORT. What the frame of every command does: the passing of time and what follows at once from the line's state. -/

namespace Sys2Proof.Machine

/-- A timed event outside RESET. -/
theorem timed_awake {s : State} (h : s.station.phase ≠ .reset) (elapsed : Nat) (event : State → State) :
    timed elapsed event s = keepUp (event (passTime elapsed s)) := by
  unfold timed
  rw [if_neg h]

/-- A timed event in RESET. -/
theorem timed_reset {s : State} (h : s.station.phase = .reset) (elapsed : Nat) (event : State → State) :
    timed elapsed event s = s := by
  unfold timed
  rw [if_pos h]

@[simp] theorem passTime_engine (e : Nat) (s : State) : (passTime e s).engine = s.engine := rfl
@[simp] theorem passTime_lanes (e : Nat) (s : State) : (passTime e s).lanes = s.lanes := rfl
@[simp] theorem passTime_shock (e : Nat) (s : State) : (passTime e s).shock = s.shock := rfl
@[simp] theorem passTime_peers (e : Nat) (s : State) : (passTime e s).peers = s.peers := rfl
@[simp] theorem passTime_groups (e : Nat) (s : State) : (passTime e s).groups = s.groups := rfl
@[simp] theorem passTime_reportTimer (e : Nat) (s : State) : (passTime e s).reportTimer = s.reportTimer := rfl
@[simp] theorem passTime_rateTick (e : Nat) (s : State) : (passTime e s).rateTick = s.rateTick := rfl
@[simp] theorem passTime_choices (e : Nat) (s : State) : (passTime e s).choices = s.choices := rfl
@[simp] theorem passTime_pending (e : Nat) (s : State) : (passTime e s).pending = s.pending := rfl
@[simp] theorem passTime_line (e : Nat) (s : State) : (passTime e s).line = s.line := rfl
@[simp] theorem passTime_station (e : Nat) (s : State) :
    (passTime e s).station = { s.station with clock := s.now.addUs e } := rfl
@[simp] theorem passTime_now (e : Nat) (s : State) : (passTime e s).now = s.now.addUs e := rfl
@[simp] theorem passTime_lane (e : Nat) (s : State) (l : LaneNo) : (passTime e s).lane l = s.lane l := rfl
@[simp] theorem passTime_group (e : Nat) (s : State) (g : GroupNo) : (passTime e s).group g = s.group g := rfl
@[simp] theorem passTime_settings (e : Nat) (s : State) : (passTime e s).settings = s.settings := rfl
@[simp] theorem passTime_laneSettings (e : Nat) (s : State) (l : LaneNo) : (passTime e s).laneSettings l = s.laneSettings l := rfl
@[simp] theorem passTime_inBrownOut (e : Nat) (s : State) : (passTime e s).inBrownOut = s.inBrownOut := rfl
@[simp] theorem passTime_number (e : Nat) (s : State) : (passTime e s).number = s.number := rfl
@[simp] theorem passTime_joining (e : Nat) (s : State) : (passTime e s).joining = s.joining := rfl
@[simp] theorem passTime_channelsFrom (e : Nat) (s : State) (n : Nat) : (passTime e s).channelsFrom n = s.channelsFrom n := rfl
@[simp] theorem passTime_buttonAsks (e : Nat) (s : State) (l : LaneNo) : (passTime e s).buttonAsks l = s.buttonAsks l := rfl

@[simp] theorem keepUp_engine (s : State) : (keepUp s).engine = s.engine := rfl
@[simp] theorem keepUp_lanes (s : State) : (keepUp s).lanes = s.lanes := rfl
@[simp] theorem keepUp_shock (s : State) : (keepUp s).shock = s.shock := rfl
@[simp] theorem keepUp_peers (s : State) : (keepUp s).peers = s.peers := rfl
@[simp] theorem keepUp_groups (s : State) : (keepUp s).groups = s.groups := rfl
@[simp] theorem keepUp_reportTimer (s : State) : (keepUp s).reportTimer = s.reportTimer := rfl
@[simp] theorem keepUp_rateTick (s : State) : (keepUp s).rateTick = s.rateTick := rfl
@[simp] theorem keepUp_choices (s : State) : (keepUp s).choices = s.choices := rfl
@[simp] theorem keepUp_pending (s : State) : (keepUp s).pending = s.pending := rfl
@[simp] theorem keepUp_station (s : State) : (keepUp s).station = s.station := rfl
@[simp] theorem keepUp_now (s : State) : (keepUp s).now = s.now := rfl
@[simp] theorem keepUp_lane (s : State) (l : LaneNo) : (keepUp s).lane l = s.lane l := rfl
@[simp] theorem keepUp_group (s : State) (g : GroupNo) : (keepUp s).group g = s.group g := rfl
@[simp] theorem keepUp_settings (s : State) : (keepUp s).settings = s.settings := rfl
@[simp] theorem keepUp_laneSettings (s : State) (l : LaneNo) : (keepUp s).laneSettings l = s.laneSettings l := rfl
@[simp] theorem keepUp_line_state (s : State) : (keepUp s).line.state = s.line.state := rfl
@[simp] theorem keepUp_line_tecCount (s : State) : (keepUp s).line.tecCount = s.line.tecCount := rfl
@[simp] theorem keepUp_line_recCount (s : State) : (keepUp s).line.recCount = s.line.recCount := rfl
@[simp] theorem keepUp_line_lastError (s : State) : (keepUp s).line.lastError = s.line.lastError := rfl
@[simp] theorem keepUp_line_receiver (s : State) : (keepUp s).line.receiver = s.line.receiver := rfl
@[simp] theorem keepUp_line_attempt (s : State) : (keepUp s).line.attempt = s.line.attempt := rfl
@[simp] theorem keepUp_line_secondTimer (s : State) : (keepUp s).line.secondTimer = s.line.secondTimer := rfl
@[simp] theorem keepUp_line_use (s : State) : (keepUp s).line.use = s.line.use := rfl

/-- A list of entries after busy-seen marks keeps any view that does not see the mark. -/
theorem markBusySeen_map {β : Type} (view : Entry → β) (hv : ∀ e, view { e with busySeen := true } = view e) (t : Time)
    (q : List Entry) : (markBusySeen t q).map view = q.map view := by
  induction q with
  | nil => rfl
  | cons e q ih =>
    simp only [markBusySeen, List.map_cons, List.map_map] at *
    rw [ih]
    congr 1
    split
    · exact hv e
    · rfl

theorem passTime_queue_map {β : Type} (view : Entry → β) (hv : ∀ e, view { e with busySeen := true } = view e) (e : Nat)
    (s : State) : (passTime e s).queue.map view = s.queue.map view := by
  unfold passTime
  dsimp only
  split
  · exact markBusySeen_map view hv _ _
  · rfl

theorem keepUp_queue_map {β : Type} (view : Entry → β) (hv : ∀ e, view { e with busySeen := true } = view e)
    (s : State) : (keepUp s).queue.map view = s.queue.map view := by
  unfold keepUp
  dsimp only
  split
  · exact markBusySeen_map view hv _ _
  · rfl

/-- A test that does not see the mark holds of some entry after busy-seen marks just when it did before. -/
theorem any_of_map_eq {p q : List Entry} (test : Entry → Bool) (h : p.map test = q.map test) : p.any test = q.any test := by
  have : (p.map test).any id = (q.map test).any id := by rw [h]
  simpa [List.any_map] using this

theorem passTime_queue_any (test : Entry → Bool) (hv : ∀ e, test { e with busySeen := true } = test e) (e : Nat)
    (s : State) : (passTime e s).queue.any test = s.queue.any test :=
  any_of_map_eq test (passTime_queue_map test hv e s)

theorem keepUp_queue_any (test : Entry → Bool) (hv : ∀ e, test { e with busySeen := true } = test e)
    (s : State) : (keepUp s).queue.any test = s.queue.any test :=
  any_of_map_eq test (keepUp_queue_map test hv s)

@[simp] theorem passTime_queue_length (e : Nat) (s : State) : (passTime e s).queue.length = s.queue.length := by
  simpa using congrArg List.length (passTime_queue_map (fun _ => ()) (fun _ => rfl) e s)

@[simp] theorem keepUp_queue_length (s : State) : (keepUp s).queue.length = s.queue.length := by
  simpa using congrArg List.length (keepUp_queue_map (fun _ => ()) (fun _ => rfl) s)

/-- With a line that is not busy otherwise than through the own attempt no mark is set as time passes. -/
theorem passTime_queue_of_use {s : State} (h : s.line.use ≠ .busyOther) (e : Nat) : (passTime e s).queue = s.queue := by
  unfold passTime
  dsimp only
  rw [if_neg (fun hc => h hc.1)]

theorem keepUp_queue_of_use {s : State} (h : s.line.use ≠ .busyOther) : (keepUp s).queue = s.queue := by
  unfold keepUp
  dsimp only
  rw [if_neg h]

end Sys2Proof.Machine
end

