-- ==== Sys2Proof/Laws/Line.lean ====
section
/-! SUPPORT. What a change of TEC or REC can do, and how a complete frame reaches its filter. -/

namespace Sys2Proof.Machine

/-! ## The line state -/

/-- The Line Controller after the check of its counts, without the events that LISTEN-ONLY brings elsewhere. -/
def LineController.checked (now : Time) (lc : LineController) : LineController :=
  match lc.state with
  | .active =>
    if 128 ≤ lc.tecCount ∨ 128 ≤ lc.recCount then { lc with state := .listenOnly, secondTimer := some (now.addMs 1000) } else lc
  | .listenOnly => if lc.tecCount ≤ 95 ∧ lc.recCount ≤ 95 then { lc with state := .active, secondTimer := none } else lc

/-- The check leads from ACTIVE to LISTEN-ONLY. -/
def LineController.overflows (lc : LineController) : Bool :=
  decide (lc.state = .active) && (decide (128 ≤ lc.tecCount) || decide (128 ≤ lc.recCount))

/-- The state after the check of the counts, but for the groups and the queue. -/
def State.lineChecked (s : State) : State :=
  let t := s.updateLine (LineController.checked s.now)
  if s.line.overflows then t.latch .listenOnlyEntered else t

/-- A change of a count does what the rules give the line, the flag of LISTEN-ONLY, and no more than the alerts' events elsewhere. -/
theorem checkLineState_agrees (s : State) : (checkLineState s).AgreesButAisle s.lineChecked := by
  unfold checkLineState State.lineChecked LineController.overflows
  cases h : s.line.state with
  | active =>
    dsimp only
    by_cases hc : 128 ≤ s.line.tecCount ∨ 128 ≤ s.line.recCount
    · rw [if_pos hc, if_pos (by simpa using hc)]
      unfold enterListenOnly
      refine (eachGroup_agreesAisle alertListenOnly_agrees _).trans ?_
      have : s.updateLine (LineController.checked s.now)
          = s.updateLine (fun lc => { lc with state := .listenOnly, secondTimer := some (s.now.addMs 1000) }) := by
        simp [State.updateLine, LineController.checked, h, hc]
      rw [this]
      exact .refl _
    · rw [if_neg hc, if_neg (by simpa using hc)]
      have : s.updateLine (LineController.checked s.now) = s := by
        simp [State.updateLine, LineController.checked, h, hc]
      rw [this]
      exact .refl _
  | listenOnly =>
    dsimp only
    simp only [show decide (LineState.listenOnly = LineState.active) = false from rfl, Bool.false_and, Bool.false_eq_true, if_false]
    by_cases hc : s.line.tecCount ≤ 95 ∧ s.line.recCount ≤ 95
    · rw [if_pos hc]
      have : s.updateLine (LineController.checked s.now) = enterActive s := by
        simp [State.updateLine, LineController.checked, h, hc, enterActive]
      rw [this]
      exact .refl _
    · rw [if_neg hc]
      have : s.updateLine (LineController.checked s.now) = s := by
        simp [State.updateLine, LineController.checked, h, hc]
      rw [this]
      exact .refl _

/-- A check that does not lead into LISTEN-ONLY changes the Line Controller alone. -/
theorem checkLineState_calm {s : State} (h : s.line.overflows = false) :
    checkLineState s = s.updateLine (LineController.checked s.now) := by
  unfold checkLineState
  unfold LineController.overflows at h
  cases hs : s.line.state with
  | active =>
    have hc : ¬(128 ≤ s.line.tecCount ∨ 128 ≤ s.line.recCount) := by simpa [hs] using h
    simp [State.updateLine, LineController.checked, hs, hc]
  | listenOnly =>
    by_cases hc : s.line.tecCount ≤ 95 ∧ s.line.recCount ≤ 95
    · simp [State.updateLine, LineController.checked, hs, hc, enterActive]
    · simp [State.updateLine, LineController.checked, hs, hc]

variable (now : Time) (lc : LineController)

@[simp] theorem LineController.checked_tecCount : (lc.checked now).tecCount = lc.tecCount := by
  unfold LineController.checked; split <;> split <;> rfl

@[simp] theorem LineController.checked_recCount : (lc.checked now).recCount = lc.recCount := by
  unfold LineController.checked; split <;> split <;> rfl

@[simp] theorem LineController.checked_lastError : (lc.checked now).lastError = lc.lastError := by
  unfold LineController.checked; split <;> split <;> rfl

@[simp] theorem LineController.checked_receiver : (lc.checked now).receiver = lc.receiver := by
  unfold LineController.checked; split <;> split <;> rfl

@[simp] theorem LineController.checked_attempt : (lc.checked now).attempt = lc.attempt := by
  unfold LineController.checked; split <;> split <;> rfl

@[simp] theorem LineController.checked_stuckSince : (lc.checked now).stuckSince = lc.stuckSince := by
  unfold LineController.checked; split <;> split <;> rfl

@[simp] theorem LineController.checked_level : (lc.checked now).level = lc.level := by
  unfold LineController.checked; split <;> split <;> rfl

@[simp] theorem LineController.checked_lowEnd : (lc.checked now).lowEnd = lc.lowEnd := by
  unfold LineController.checked; split <;> split <;> rfl

@[simp] theorem LineController.checked_use : (lc.checked now).use = lc.use := by
  unfold LineController.checked; split <;> split <;> rfl

theorem State.lineChecked_line (s : State) : s.lineChecked.line = s.line.checked s.now := by
  unfold State.lineChecked
  dsimp only
  split <;> rfl

theorem State.lineChecked_engine (s : State) : s.lineChecked.engine = s.engine := by
  unfold State.lineChecked
  dsimp only
  split <;> rfl

theorem State.lineChecked_lanes (s : State) : s.lineChecked.lanes = s.lanes := by
  unfold State.lineChecked
  dsimp only
  split <;> rfl

theorem State.lineChecked_shock (s : State) : s.lineChecked.shock = s.shock := by
  unfold State.lineChecked
  dsimp only
  split <;> rfl

theorem State.lineChecked_peers (s : State) : s.lineChecked.peers = s.peers := by
  unfold State.lineChecked
  dsimp only
  split <;> rfl

theorem State.lineChecked_counters (s : State) : s.lineChecked.station.counters = s.station.counters := by
  unfold State.lineChecked
  dsimp only
  split <;> rfl

theorem State.lineChecked_clock (s : State) : s.lineChecked.station.clock = s.station.clock := by
  unfold State.lineChecked
  dsimp only
  split <;> rfl

theorem State.lineChecked_phase (s : State) : s.lineChecked.station.phase = s.station.phase := by
  unfold State.lineChecked
  dsimp only
  split <;> rfl

theorem State.lineChecked_config (s : State) : s.lineChecked.station.config = s.station.config := by
  unfold State.lineChecked
  dsimp only
  split <;> rfl

/-! ## The counts -/

/-- The Line Controller of the state after the check of its counts. -/
theorem checkLineState_line (s : State) : (checkLineState s).line = s.line.checked s.now := by
  rw [(checkLineState_agrees s).line, State.lineChecked_line]

/-- REC falls: with sound counts only the Line Controller changes. -/
theorem lowerRec_eq {s : State} (h : LineCountsSound s) :
    lowerRec s = s.updateLine fun lc => LineController.checked s.now { lc with recCount := lc.recCount - 1 } := by
  unfold lowerRec
  rw [checkLineState_calm]
  · rfl
  · unfold LineController.overflows
    by_cases hs : s.line.state = .active
    · have := h.2.2.1 hs
      simp [hs]
      omega
    · simp [hs]

/-- TEC falls: with sound counts only the Line Controller changes. -/
theorem lowerTec_eq {s : State} (h : LineCountsSound s) :
    lowerTec s = s.updateLine fun lc => LineController.checked s.now { lc with tecCount := lc.tecCount - 1 } := by
  unfold lowerTec
  rw [checkLineState_calm]
  · rfl
  · unfold LineController.overflows
    by_cases hs : s.line.state = .active
    · have := h.2.2.1 hs
      simp [hs]
      omega
    · simp [hs]

end Sys2Proof.Machine
end

