-- ==== Sys2Proof/Laws/Counts.lean ====
section
/-! SUPPORT. What the shared operations keep of single blocks, of the diagnostic counters and of the line's error counts. -/

namespace Sys2Proof.Machine

/-! ## Blocks that an operation does not touch -/

theorem linesKept : BusFrame fun t s => t.line = s.line where
  refl := fun _ => rfl
  trans := fun h k => h.trans k
  spend := fun _ => rfl
  coalesced := fun _ _ _ => rfl
  appended := fun _ _ _ _ => rfl
  evicted := fun _ _ _ _ _ _ => rfl
  withdrawn := fun _ _ => rfl
  counted := fun _ _ _ => rfl
  reportDue := fun _ _ _ => rfl
  survey := fun _ => rfl
  group := fun _ _ _ => rfl
  lane := fun _ _ _ => rfl
  allWeighing := fun _ _ => rfl
  shock := fun _ _ => rfl
  drifted := fun _ _ => rfl
  engine := fun _ _ => rfl
  latched := fun _ _ => rfl
  seeded := fun raw s => by unfold seedFrom; split <;> rfl

theorem linesKeptByPeers : PeerFrame fun t s => t.line = s.line where
  toAisleFrame := linesKept.toAisleFrame
  peers := fun _ _ => rfl

theorem peersKept : BusFrame fun t s => t.peers = s.peers where
  refl := fun _ => rfl
  trans := fun h k => h.trans k
  spend := fun _ => rfl
  coalesced := fun _ _ _ => rfl
  appended := fun _ _ _ _ => rfl
  evicted := fun _ _ _ _ _ _ => rfl
  withdrawn := fun _ _ => rfl
  counted := fun _ _ _ => rfl
  reportDue := fun _ _ _ => rfl
  survey := fun _ => rfl
  group := fun _ _ _ => rfl
  lane := fun _ _ _ => rfl
  allWeighing := fun _ _ => rfl
  shock := fun _ _ => rfl
  drifted := fun _ _ => rfl
  engine := fun _ _ => rfl
  latched := fun _ _ => rfl
  seeded := fun raw s => by unfold seedFrom; split <;> rfl

theorem peersKeptByLine : LineFrame fun t s => t.peers = s.peers where
  toFreeFrame := ⟨peersKept.toAisleFrame, fun _ _ => rfl⟩
  line := fun _ _ => rfl
  latched := fun _ _ => rfl
  noted := fun _ => rfl

theorem engineKept : LaneFrame fun t s => t.engine = s.engine where
  refl := fun _ => rfl
  trans := fun h k => h.trans k
  spend := fun _ => rfl
  coalesced := fun _ _ _ => rfl
  appended := fun _ _ _ _ => rfl
  evicted := fun _ _ _ _ _ _ => rfl
  withdrawn := fun _ _ => rfl
  counted := fun _ _ _ => rfl
  reportDue := fun _ _ _ => rfl
  survey := fun _ => rfl
  group := fun _ _ _ => rfl
  lane := fun _ _ _ => rfl
  allWeighing := fun _ _ => rfl
  shock := fun _ _ => rfl
  drifted := fun _ _ => rfl

theorem engineKeptByLine : LineFrame fun t s => t.engine = s.engine where
  toFreeFrame := ⟨engineKept.toAisleFrame, fun _ _ => rfl⟩
  line := fun _ _ => rfl
  latched := fun _ _ => rfl
  noted := fun _ => rfl

theorem engineKeptByPeers : PeerFrame fun t s => t.engine = s.engine where
  toAisleFrame := engineKept.toAisleFrame
  peers := fun _ _ => rfl

/-! ## The diagnostic counters -/

theorem Counters.add_bounded {c : Counters} (h : ∀ n ∈ c.values, n ≤ 65535) (name : CounterName) (k : Nat) :
    ∀ n ∈ (c.add name k).values, n ≤ 65535 := by
  simp only [Counters.values, List.forall_mem_cons, List.not_mem_nil, false_imp_iff, implies_true, and_true] at h ⊢
  have hs : ∀ m, saturate m k ≤ 65535 := fun m => Nat.min_le_right _ _
  cases name <;> simp_all [Counters.add]

/-- A counter that increases stays bounded. -/
theorem count_bounded (name : CounterName) (k : Nat) {s : State} (h : CountersBounded s) : CountersBounded (s.count name k) :=
  Counters.add_bounded h name k

theorem countersBounded_bus : BusFrame fun t s => CountersBounded s → CountersBounded t where
  refl := fun _ h => h
  trans := fun h k x => h (k x)
  spend := fun _ h => h
  coalesced := fun _ _ _ h => h
  appended := fun _ _ _ _ h => h
  evicted := fun _ _ _ _ _ _ h => h
  withdrawn := fun _ _ h => h
  counted := fun name k _ h => count_bounded name k h
  reportDue := fun _ _ _ h => h
  survey := fun s h => by
    have e : (surveySettled s).station.counters = s.station.counters := by
      unfold surveySettled
      simp only [State.updateStation_station]
      split <;> rfl
    unfold CountersBounded
    rw [e]
    exact h
  group := fun _ _ _ h => h
  lane := fun _ _ _ h => h
  allWeighing := fun _ _ h => h
  shock := fun _ _ h => h
  drifted := fun _ _ h => h
  engine := fun _ _ h => h
  latched := fun _ _ h => h
  seeded := fun raw s h => by unfold seedFrom; split <;> exact h

theorem countersBounded_line : LineFrame fun t s => CountersBounded s → CountersBounded t where
  toFreeFrame := ⟨countersBounded_bus.toAisleFrame, fun _ _ h => h⟩
  line := fun _ _ h => h
  latched := fun _ _ h => h
  noted := fun _ h => h

theorem countersBounded_peers : PeerFrame fun t s => CountersBounded s → CountersBounded t where
  toAisleFrame := countersBounded_bus.toAisleFrame
  peers := fun _ _ h => h

/-- A sent STATUS takes off, and so keeps the counters bounded. -/
theorem statusReduction_bounded {s : State} (h : CountersBounded s) : CountersBounded (statusReduction s) := by
  unfold statusReduction
  split
  · exact h
  · unfold CountersBounded at h ⊢
    simp only [Counters.values, List.forall_mem_cons, List.not_mem_nil, false_imp_iff, implies_true, and_true] at h ⊢
    simp only [Counters.less]
    omega

/-! ## The line's error counts -/

/-- Error counts that are sound for the line state they are checked for. -/
def LineController.Sound (lc : LineController) : Prop :=
  lc.tecCount ≤ 255 ∧ lc.recCount ≤ 255 ∧ (lc.state = .active → lc.tecCount < 128 ∧ lc.recCount < 128)
    ∧ (lc.secondTimer.isSome = true ↔ lc.state = .listenOnly)

theorem lineCountsSound_iff (s : State) : LineCountsSound s ↔ s.line.Sound := Iff.rfl

/-- The check makes counts within 255 sound. -/
theorem LineController.checked_sound (now : Time) {lc : LineController} (ht : lc.tecCount ≤ 255) (hr : lc.recCount ≤ 255)
    (h2 : lc.secondTimer.isSome = true ↔ lc.state = .listenOnly) : (lc.checked now).Sound := by
  unfold LineController.checked LineController.Sound
  cases hs : lc.state with
  | active =>
    simp only [hs] at h2
    by_cases hc : 128 ≤ lc.tecCount ∨ 128 ≤ lc.recCount
    · simp [hc, ht, hr]
    · simp only [hc, if_false, hs]
      refine ⟨ht, hr, fun _ => by omega, h2⟩
  | listenOnly =>
    simp only [hs] at h2
    by_cases hc : lc.tecCount ≤ 95 ∧ lc.recCount ≤ 95
    · simp [hc]
      omega
    · simp only [hc, if_false, hs]
      exact ⟨ht, hr, by simp, h2⟩

theorem raiseTec_sound {s : State} (h : LineCountsSound s) : LineCountsSound (raiseTec s) := by
  rw [lineCountsSound_iff] at h ⊢
  unfold raiseTec
  rw [checkLineState_line]
  exact LineController.checked_sound _ (Nat.min_le_right _ _) h.2.1 h.2.2.2

theorem lowerTec_sound {s : State} (h : LineCountsSound s) : LineCountsSound (lowerTec s) := by
  rw [lineCountsSound_iff] at h ⊢
  unfold lowerTec
  rw [checkLineState_line]
  exact LineController.checked_sound _ (Nat.le_trans (Nat.sub_le _ _) h.1) h.2.1 h.2.2.2

theorem raiseRec_sound {s : State} (h : LineCountsSound s) : LineCountsSound (raiseRec s) := by
  rw [lineCountsSound_iff] at h ⊢
  unfold raiseRec
  rw [checkLineState_line]
  exact LineController.checked_sound _ h.1 (Nat.min_le_right _ _) h.2.2.2

theorem lowerRec_sound {s : State} (h : LineCountsSound s) : LineCountsSound (lowerRec s) := by
  rw [lineCountsSound_iff] at h ⊢
  unfold lowerRec
  rw [checkLineState_line]
  exact LineController.checked_sound _ h.1 (Nat.le_trans (Nat.sub_le _ _) h.2.1) h.2.2.2

end Sys2Proof.Machine
end

