-- ==== Sys2Proof/Laws/Groups.lean ====
section
/-! SUPPORT. Everything that an event of one group, and an event that reaches every group, can do to the groups' records: an event of a group
leaves the other groups' records, and in an event of every group each takes its own part once. -/

namespace Sys2Proof.Machine

/-! ## One group -/

/-- The records of every group but `g` are the same. -/
def State.OnlyGroup (g : GroupNo) (t s : State) : Prop := ∀ h, h ≠ g → t.group h = s.group h

namespace State.OnlyGroup

variable {g : GroupNo} {s t u : State}

theorem refl (s : State) : s.OnlyGroup g s := fun _ _ => rfl

theorem trans (h : u.OnlyGroup g t) (k : t.OnlyGroup g s) : u.OnlyGroup g s := fun i hi => (h i hi).trans (k i hi)

end State.OnlyGroup

theorem State.AgreesButQueue.group {t s : State} (h : t.AgreesButQueue s) (g : GroupNo) : t.group g = s.group g :=
  congrArg (fun q : Four (Option Group) => q.get g) h.groups

theorem State.AgreesButQueue.only {t s : State} (h : t.AgreesButQueue s) (g : GroupNo) : t.OnlyGroup g s := fun i _ => h.group i

theorem State.updateGroup_group (g h : GroupNo) (f : Group → Group) (s : State) :
    (s.updateGroup g f).group h = if h = g then (s.group g).map f else s.group h := Four.get_set s.groups g h _

theorem updateGroup_only (g : GroupNo) (f : Group → Group) (s : State) : (s.updateGroup g f).OnlyGroup g s := fun i hi => by
  rw [State.updateGroup_group, if_neg hi]

theorem updateAlert_only (g : GroupNo) (f : Alert → Alert) (s : State) : (s.updateAlert g f).OnlyGroup g s := updateGroup_only g _ s

theorem updateRecord_only (g : GroupNo) (f : GroupRecord → GroupRecord) (s : State) : (s.updateRecord g f).OnlyGroup g s :=
  updateGroup_only g _ s

theorem onGroup_only {g : GroupNo} {event : Group → State → State} (h : ∀ gr s, (event gr s).OnlyGroup g s) (s : State) :
    (s.onGroup g event).OnlyGroup g s := by
  unfold State.onGroup
  split
  · exact h _ s
  · exact .refl s

theorem enterPending_only (g : GroupNo) (s : State) : (enterPending g s).OnlyGroup g s :=
  onGroup_only (fun _ s => (updateAlert_only g _ _).trans ((draw_agrees 64 s).only g)) s

theorem testClear_only (g : GroupNo) (s : State) : (testClear g s).OnlyGroup g s :=
  onGroup_only (fun _ s => by
    split
    · exact enterPending_only g s
    · exact .refl s) s

theorem withdrawRaise_only (g h : GroupNo) (s : State) : (withdrawRaise h s).OnlyGroup g s := (withdrawRaise_agrees h s).only g

theorem offerRaise_only (g : GroupNo) (s : State) : (offerRaise g s).OnlyGroup g s :=
  onGroup_only (fun _ s => (offer_agrees _ s).only g) s

theorem offerClear_only (g : GroupNo) (s : State) : (offerClear g s).OnlyGroup g s :=
  onGroup_only (fun _ s => (offer_agrees _ s).only g) s

theorem raisedReport_only (g : GroupNo) (gr : Group) (s : State) : (raisedReport g gr s).OnlyGroup g s := by
  unfold raisedReport
  split
  · exact .refl s
  · split
    · refine (withdrawRaise_only g g _).trans ((updateAlert_only g _ _).trans ?_)
      split
      · exact offerClear_only g s
      · exact .refl s
    · split
      · exact (offerRaise_only g _).trans (updateAlert_only g _ s)
      · exact .refl s

theorem alertReport_only (g : GroupNo) (s : State) : (alertReport g s).OnlyGroup g s :=
  onGroup_only (fun gr s => by
    split
    · exact testClear_only g s
    · split
      · exact .refl s
      · exact updateAlert_only g _ s
    · exact raisedReport_only g gr s
    · exact .refl s
    · split
      · exact .refl s
      · exact updateAlert_only g _ s
    · exact .refl s) s

theorem suspendAlert_only (g : GroupNo) (s : State) : (suspendAlert g s).OnlyGroup g s :=
  onGroup_only (fun _ s => by
    split
    · exact .refl s
    · exact (withdrawRaise_only g g _).trans (updateAlert_only g _ s)) s

theorem resumeAlert_only (g : GroupNo) (s : State) : (resumeAlert g s).OnlyGroup g s :=
  onGroup_only (fun _ s => by
    split
    · exact (testClear_only g _).trans (updateAlert_only g _ s)
    · exact .refl s) s

theorem suspensionReport_only (g : GroupNo) (b a : GroupRecord) (s : State) : (suspensionReport g b a s).OnlyGroup g s := by
  unfold suspensionReport
  split
  · exact .refl _
  · split
    · exact suspendAlert_only g _
    · exact resumeAlert_only g _

theorem levelReport_only (g : GroupNo) (b a : GroupRecord) (s : State) : (levelReport g b a s).OnlyGroup g s := by
  unfold levelReport
  split
  · exact .refl _
  · exact alertReport_only g _

/-- An evaluation of a group leaves the records of every other group. -/
theorem evaluate_only (g : GroupNo) (s : State) : (evaluate g s).OnlyGroup g s :=
  onGroup_only (fun _ s =>
    (levelReport_only g _ _ _).trans ((suspensionReport_only g _ _ _).trans (updateRecord_only g _ s))) s

/-! ## The group's own record -/

theorem updateGroup_group_self (g : GroupNo) (f : Group → Group) (s : State) : (s.updateGroup g f).group g = (s.group g).map f := by
  rw [State.updateGroup_group, if_pos rfl]

/-- Group `g`, if it was there, is there with the same group record; its alert record may have changed. -/
def State.KeepsRecord (g : GroupNo) (t s : State) : Prop :=
  ∀ gr, s.group g = some gr → ∃ after, t.group g = some after ∧ after.record = gr.record

namespace State.KeepsRecord

variable {g : GroupNo} {s t u : State}

theorem refl (s : State) : s.KeepsRecord g s := fun gr h => ⟨gr, h, rfl⟩

theorem trans (h : u.KeepsRecord g t) (k : t.KeepsRecord g s) : u.KeepsRecord g s := fun gr hg =>
  let ⟨mid, hm, em⟩ := k gr hg
  let ⟨after, ha, ea⟩ := h mid hm
  ⟨after, ha, ea.trans em⟩

end State.KeepsRecord

theorem State.AgreesButQueue.keepsRecord {t s : State} (h : t.AgreesButQueue s) (g : GroupNo) : t.KeepsRecord g s :=
  fun gr hg => ⟨gr, (h.group g).trans hg, rfl⟩

theorem updateAlert_record (g : GroupNo) (f : Alert → Alert) (s : State) : (s.updateAlert g f).KeepsRecord g s := fun gr h =>
  ⟨{ gr with alert := gr.alert.withOrigin (f gr.alert) s.now }, by rw [State.updateAlert, updateGroup_group_self, h]; rfl, rfl⟩

theorem onGroup_record {g : GroupNo} {event : Group → State → State} (h : ∀ gr s, (event gr s).KeepsRecord g s) (s : State) :
    (s.onGroup g event).KeepsRecord g s := by
  unfold State.onGroup
  split
  · exact h _ s
  · exact .refl s

theorem enterPending_record (g : GroupNo) (s : State) : (enterPending g s).KeepsRecord g s :=
  onGroup_record (fun _ s => (updateAlert_record g _ _).trans ((draw_agrees 64 s).keepsRecord g)) s

theorem testClear_record (g : GroupNo) (s : State) : (testClear g s).KeepsRecord g s :=
  onGroup_record (fun _ s => by
    split
    · exact enterPending_record g s
    · exact .refl s) s

theorem withdrawRaise_record (g h : GroupNo) (s : State) : (withdrawRaise h s).KeepsRecord g s :=
  (withdrawRaise_agrees h s).keepsRecord g

theorem offerRaise_record (g : GroupNo) (s : State) : (offerRaise g s).KeepsRecord g s :=
  onGroup_record (fun _ s => (offer_agrees _ s).keepsRecord g) s

theorem offerClear_record (g : GroupNo) (s : State) : (offerClear g s).KeepsRecord g s :=
  onGroup_record (fun _ s => (offer_agrees _ s).keepsRecord g) s

theorem raisedReport_record (g : GroupNo) (gr : Group) (s : State) : (raisedReport g gr s).KeepsRecord g s := by
  unfold raisedReport
  split
  · exact .refl s
  · split
    · refine (withdrawRaise_record g g _).trans ((updateAlert_record g _ _).trans ?_)
      split
      · exact offerClear_record g s
      · exact .refl s
    · split
      · exact (offerRaise_record g _).trans (updateAlert_record g _ s)
      · exact .refl s

theorem alertReport_record (g : GroupNo) (s : State) : (alertReport g s).KeepsRecord g s :=
  onGroup_record (fun gr s => by
    split
    · exact testClear_record g s
    · split
      · exact .refl s
      · exact updateAlert_record g _ s
    · exact raisedReport_record g gr s
    · exact .refl s
    · split
      · exact .refl s
      · exact updateAlert_record g _ s
    · exact .refl s) s

theorem suspendAlert_record (g : GroupNo) (s : State) : (suspendAlert g s).KeepsRecord g s :=
  onGroup_record (fun _ s => by
    split
    · exact .refl s
    · exact (withdrawRaise_record g g _).trans (updateAlert_record g _ s)) s

theorem resumeAlert_record (g : GroupNo) (s : State) : (resumeAlert g s).KeepsRecord g s :=
  onGroup_record (fun _ s => by
    split
    · exact (testClear_record g _).trans (updateAlert_record g _ s)
    · exact .refl s) s

theorem suspensionReport_record (g : GroupNo) (b a : GroupRecord) (s : State) : (suspensionReport g b a s).KeepsRecord g s := by
  unfold suspensionReport
  split
  · exact .refl _
  · split
    · exact suspendAlert_record g _
    · exact resumeAlert_record g _

theorem levelReport_record (g : GroupNo) (b a : GroupRecord) (s : State) : (levelReport g b a s).KeepsRecord g s := by
  unfold levelReport
  split
  · exact .refl _
  · exact alertReport_record g _

/-- After an evaluation the group's record is the one recomputed from the lanes and the table. -/
theorem evaluate_record (g : GroupNo) (s : State) (gr : Group) (h : s.group g = some gr) :
    ∃ after, (evaluate g s).group g = some after
      ∧ after.record = gr.record.evaluated (s.holders gr.record.key gr.record.mask) := by
  unfold evaluate State.onGroup
  rw [h]
  refine (levelReport_record g _ _ _).trans (suspensionReport_record g _ _ _)
    { gr with record := gr.record.evaluated (s.holders gr.record.key gr.record.mask) } ?_
  rw [State.updateRecord, updateGroup_group_self, h]
  rfl

/-! ## What a group takes of the lanes, the table and the rate tick -/

theorem setMembership_only (g : GroupNo) (s : State) : (setMembership g s).OnlyGroup g s := updateRecord_only g _ s

theorem groupTakesLane_only (article : Word) (moves : Bool) (g : GroupNo) (s : State) :
    (groupTakesLane article moves g s).OnlyGroup g s :=
  onGroup_only (fun _ s => by
    split
    · refine (evaluate_only g _).trans ?_
      split
      · exact setMembership_only g s
      · exact .refl s
    · exact .refl s) s

theorem groupTakesNotice_only (before after : Option PeerEntry) (g : GroupNo) (s : State) :
    (groupTakesNotice before after g s).OnlyGroup g s :=
  onGroup_only (fun _ s => by
    dsimp only
    split
    · refine (evaluate_only g _).trans ?_
      split
      · exact setMembership_only g s
      · exact .refl s
    · exact .refl s) s

theorem groupRateTick_only (g : GroupNo) (s : State) : (groupRateTick g s).OnlyGroup g s :=
  (evaluate_only g _).trans (updateGroup_only g _ s)

/-! ## Every group -/

theorem insertAt_perm {α : Type} (i : Nat) (a : α) (l : List α) : (insertAt i a l).Perm (a :: l) := by
  induction l generalizing i with
  | nil => cases i <;> exact List.Perm.refl _
  | cons b l ih =>
    cases i with
    | zero => exact List.Perm.refl _
    | succ i => exact ((ih i).cons b).trans (List.Perm.swap a b l)

/-- A free order of a list holds its items, each as often as the list does. -/
theorem arrange_perm {α : Type} (n : Nat) (l : List α) : (arrange n l).Perm l := by
  induction l generalizing n with
  | nil => exact List.Perm.refl _
  | cons a l ih => exact (insertAt_perm _ a _).trans ((ih _).cons a)

theorem allGroups_nodup : allGroups.Nodup := by decide

/-- In an event of some groups, each of them once, a group's records at the end are what its own part makes of the records before the event,
in a state that agrees with the one before but for the Transmit Queue and the groups. -/
theorem foldl_group {f : GroupNo → State → State} (hf : ∀ g s, (f g s).AgreesButAisle s) (ho : ∀ g s, (f g s).OnlyGroup g s)
    (g : GroupNo) (l : List GroupNo) (hl : l.Nodup) (s : State) :
    (g ∉ l → (l.foldl (fun t h => f h t) s).group g = s.group g)
      ∧ (g ∈ l → ∃ u : State, u.AgreesButAisle s ∧ u.group g = s.group g
        ∧ (l.foldl (fun t h => f h t) s).group g = (f g u).group g) := by
  induction l generalizing s with
  | nil => exact ⟨fun _ => rfl, fun h => (by cases h)⟩
  | cons a l ih =>
    obtain ⟨ha, hl⟩ := List.nodup_cons.mp hl
    obtain ⟨out, inn⟩ := ih hl (f a s)
    refine ⟨fun h => ?_, fun h => ?_⟩
    · have ne : g ≠ a := fun e => h (e ▸ List.mem_cons_self)
      exact (out fun m => h (List.mem_cons_of_mem a m)).trans (ho a s g ne)
    · rcases List.mem_cons.mp h with rfl | m
      · exact ⟨s, .refl s, rfl, out ha⟩
      · obtain ⟨u, hu, hg, he⟩ := inn m
        exact ⟨u, hu.trans (hf a s), hg.trans (ho a s g fun e => ha (e ▸ m)), he⟩

/-- In an event of every group, a group's records at the end are what its own part makes of the records before the event. -/
theorem eachGroup_group {f : GroupNo → State → State} (hf : ∀ g s, (f g s).AgreesButAisle s) (ho : ∀ g s, (f g s).OnlyGroup g s)
    (g : GroupNo) (s : State) :
    ∃ u : State, u.AgreesButAisle s ∧ u.group g = s.group g ∧ (eachGroup f s).group g = (f g u).group g := by
  have p := arrange_perm (Config.freeOrder s.choices) allGroups
  have member : g ∈ allGroups := by revert g; decide
  obtain ⟨u, hu, hg, he⟩ := (foldl_group hf ho g _ (p.nodup_iff.mpr allGroups_nodup) s.spend).2 (p.mem_iff.mpr member)
  exact ⟨u, hu.trans (spend_agrees s).aisle, hg, he⟩

end Sys2Proof.Machine
end

