-- ==== Sys2Proof/Laws/Lanes.lean ====
section
/-! SUPPORT. Everything that the lanes can do to the rest of the machine: a round's delivery, a settlement, a shock, a press and a report of
a channel keep a view of the state in which only the lanes and what they feed are erased. -/

namespace Sys2Proof.Machine

/-- The state without the lanes and what they feed: the aisle view, the lanes, the two times of the Shock Monitor, the counters and the
cause notes of DRIFT. -/
def State.laneFreeView (s : State) : State :=
  { s.aisleView with
    station := { s.aisleView.station with
      counters := Counters.zero
      notes := { s.station.notes with drift := Four.all false } }
    lanes := Four.all (Lane.reset false)
    shock := { s.shock with holdoff := none, sendInhibit := none } }

/-- Two states that agree but for the lanes and what they feed. -/
def State.AgreesButLanes (t s : State) : Prop := t.laneFreeView = s.laneFreeView

theorem State.AgreesButAisle.lanes {t s : State} (h : t.AgreesButAisle s) : t.AgreesButLanes s := by
  have hn := h.notes
  have hs := h.shock
  unfold State.AgreesButAisle at h
  unfold State.AgreesButLanes State.laneFreeView
  rw [h, hn, hs]

theorem State.AgreesButQueue.lanes {t s : State} (h : t.AgreesButQueue s) : t.AgreesButLanes s := h.aisle.lanes

namespace State.AgreesButLanes

variable {s t u : State}

theorem refl (s : State) : s.AgreesButLanes s := rfl

theorem trans (h : u.AgreesButLanes t) (k : t.AgreesButLanes s) : u.AgreesButLanes s := Eq.trans h k

theorem view {β : Type} (f : State → β) (h : t.AgreesButLanes s) : f t.laneFreeView = f s.laneFreeView := congrArg f h

theorem engine (h : t.AgreesButLanes s) : t.engine = s.engine := h.view State.engine

theorem line (h : t.AgreesButLanes s) : t.line = s.line := h.view State.line

theorem peers (h : t.AgreesButLanes s) : t.peers = s.peers := h.view State.peers

theorem reportTimer (h : t.AgreesButLanes s) : t.reportTimer = s.reportTimer := h.view State.reportTimer

theorem rateTick (h : t.AgreesButLanes s) : t.rateTick = s.rateTick := h.view State.rateTick

theorem phase (h : t.AgreesButLanes s) : t.station.phase = s.station.phase := h.view fun x : State => x.station.phase

theorem clock (h : t.AgreesButLanes s) : t.station.clock = s.station.clock := h.view fun x : State => x.station.clock

theorem number (h : t.AgreesButLanes s) : t.station.number = s.station.number := h.view fun x : State => x.station.number

theorem brownOut (h : t.AgreesButLanes s) : t.station.brownOut = s.station.brownOut :=
  h.view fun x : State => x.station.brownOut

theorem warmUpTimer (h : t.AgreesButLanes s) : t.station.warmUpTimer = s.station.warmUpTimer :=
  h.view fun x : State => x.station.warmUpTimer

theorem config (h : t.AgreesButLanes s) : t.station.config = s.station.config := h.view fun x : State => x.station.config

theorem block (h : t.AgreesButLanes s) : t.station.block = s.station.block := h.view fun x : State => x.station.block

theorem flags (h : t.AgreesButLanes s) : t.station.flags = s.station.flags := h.view fun x : State => x.station.flags

theorem noteFlags (h : t.AgreesButLanes s) : t.station.notes.flags = s.station.notes.flags :=
  h.view fun x : State => x.station.notes.flags

theorem capture (h : t.AgreesButLanes s) : t.station.capture = s.station.capture := h.view fun x : State => x.station.capture

theorem now (h : t.AgreesButLanes s) : t.now = s.now := h.clock

theorem settings (h : t.AgreesButLanes s) : t.settings = s.settings := by
  simp only [State.settings, h.config]

theorem laneSettings (h : t.AgreesButLanes s) (l : LaneNo) : t.laneSettings l = s.laneSettings l := by
  simp only [State.laneSettings, h.config]

theorem inBrownOut (h : t.AgreesButLanes s) : t.inBrownOut = s.inBrownOut := by
  simp only [State.inBrownOut, h.brownOut]

end State.AgreesButLanes

/-! ## Changes of one lane -/

theorem updateLane_agreesLanes (l : LaneNo) (f : Lane → Lane) (s : State) : (s.updateLane l f).AgreesButLanes s := rfl

theorem updateService_agreesLanes (l : LaneNo) (f : Service → Service) (s : State) :
    (s.updateService l f).AgreesButLanes s := rfl

theorem updateWeighing_agreesLanes (l : LaneNo) (f : Weighing → Weighing) (s : State) :
    (s.updateWeighing l f).AgreesButLanes s := rfl

theorem updateAllWeighing_agreesLanes (f : Weighing → Weighing) (s : State) :
    (s.updateAllWeighing f).AgreesButLanes s := rfl

theorem count_agreesLanes (name : CounterName) (k : Nat) (s : State) : (s.count name k).AgreesButLanes s := rfl

theorem noteDrift_agreesLanes (l : LaneNo) (s : State) : (s.noteDrift l).AgreesButLanes s := rfl

theorem changeLane_agreesLanes (l : LaneNo) (f : Lane → Lane) (s : State) : (changeLane l f s).AgreesButLanes s :=
  (changeLane_agrees l f s).lanes.trans (updateLane_agreesLanes l f s)

theorem eachLane_agreesLanes {f : LaneNo → State → State} (hf : ∀ l s, (f l s).AgreesButLanes s) (s : State) :
    (eachLane f s).AgreesButLanes s :=
  (foldl_relates State.AgreesButLanes .refl (fun h k => State.AgreesButLanes.trans h k) _ (fun s l => hf l s) _ _).trans
    (spend_agrees s).lanes

/-! ## The Lane Service Unit -/

theorem laneFaults_agreesLanes (l : LaneNo) (s : State) : (laneFaults l s).AgreesButLanes s := by
  unfold laneFaults
  split
  · exact changeLane_agreesLanes l _ s
  · exact .refl s

theorem testFault_agreesLanes (l : LaneNo) (s : State) : (testFault l s).AgreesButLanes s := by
  unfold testFault
  split
  · exact changeLane_agreesLanes l _ s
  · exact .refl s

theorem laneBrownOutEnd_agreesLanes (l : LaneNo) (s : State) : (laneBrownOutEnd l s).AgreesButLanes s := by
  unfold laneBrownOutEnd
  split
  · exact changeLane_agreesLanes l _ s
  · exact changeLane_agreesLanes l _ s
  all_goals exact .refl s

theorem refusePress_agreesLanes (l : LaneNo) (s : State) : (refusePress l s).AgreesButLanes s := rfl

theorem shortPress_agreesLanes (l : LaneNo) (s : State) : (shortPress l s).AgreesButLanes s := by
  unfold shortPress
  split
  · exact .refl s
  · split
    · rfl
    · exact changeLane_agreesLanes l _ s
  · split
    · rfl
    · exact changeLane_agreesLanes l _ s
  all_goals rfl

theorem reZero_agreesLanes (l : LaneNo) (offset : Int) (s : State) : (reZero l offset s).AgreesButLanes s :=
  (laneSettled_agrees true l _ _).lanes.trans (updateLane_agreesLanes l _ s)

theorem longPressTaken_agreesLanes (l : LaneNo) (s : State) : (longPressTaken l s).AgreesButLanes s := by
  unfold longPressTaken
  split
  · exact .refl s
  · split
    · rfl
    · split
      · exact reZero_agreesLanes l _ s
      · rfl
  all_goals rfl

/-! ## The Shock Monitor, the Lane Counter and the Lane Weighing Unit -/

theorem setHoldoff_agreesLanes (ends : Time) (s : State) : (setHoldoff ends s).AgreesButLanes s := rfl

theorem applyCandidate_agreesLanes (c : Time) (s : State) : (applyCandidate c s).AgreesButLanes s := by
  unfold applyCandidate
  split
  · rfl
  · split
    · rfl
    · exact .refl s

theorem disturbOffer_agreesLanes (s : State) : (disturbOffer s).AgreesButLanes s := by
  unfold disturbOffer
  split
  · exact (offer_agrees _ _).lanes
  · exact .refl s

theorem shockReported_agreesLanes (s : State) : (shockReported s).AgreesButLanes s :=
  (disturbOffer_agreesLanes _).trans (applyCandidate_agreesLanes _ s)

theorem countSettlement_agreesLanes (r : Settlement) (s : State) : (countSettlement r s).AgreesButLanes s := by
  unfold countSettlement
  split <;> split <;> split <;> rfl

theorem settlementArrives_agreesLanes (l : LaneNo) (level : Int) (isOver : Bool) (s : State) :
    (settlementArrives l level isOver s).AgreesButLanes s := by
  unfold settlementArrives
  dsimp only
  split
  · refine (changeLane_agreesLanes l _ _).trans ((countSettlement_agreesLanes _ _).trans ?_)
    split
    · rfl
    · exact .refl s
  · exact .refl s

theorem takeFiltered_agreesLanes (l : LaneNo) (f : Weight) (s : State) : (takeFiltered l f s).AgreesButLanes s := by
  unfold takeFiltered
  split
  · exact .refl s
  · dsimp only
    split
    · exact (settlementArrives_agreesLanes l _ _ _).trans (updateWeighing_agreesLanes l _ s)
    · exact updateWeighing_agreesLanes l _ s

theorem shockSample_agreesLanes (l : LaneNo) (g : Weight) (s : State) : (shockSample l g s).AgreesButLanes s := by
  unfold shockSample enterFilter
  exact (updateWeighing_agreesLanes l _ _).trans ((updateWeighing_agreesLanes l _ _).trans
    ((updateWeighing_agreesLanes l _ _).trans (shockReported_agreesLanes s)))

theorem quietSample_agreesLanes (l : LaneNo) (g : Weight) (s : State) : (quietSample l g s).AgreesButLanes s := by
  unfold quietSample enterFilter
  dsimp only
  split
  · exact (takeFiltered_agreesLanes l _ _).trans
      ((updateWeighing_agreesLanes l _ _).trans (updateWeighing_agreesLanes l _ s))
  · exact (updateWeighing_agreesLanes l _ _).trans (updateWeighing_agreesLanes l _ s)

theorem takeSample_agreesLanes (l : LaneNo) (g : Weight) (s : State) : (takeSample l g s).AgreesButLanes s := by
  unfold takeSample
  split
  · exact shockSample_agreesLanes l g s
  · exact quietSample_agreesLanes l g s

/-- A round's delivery to a lane reaches nothing but the lanes and what they feed. -/
theorem deliverRound_agreesLanes (l : LaneNo) (s : State) : (deliverRound l s).AgreesButLanes s := by
  unfold deliverRound
  dsimp only
  split
  · exact (takeSample_agreesLanes l _ _).trans (testFault_agreesLanes l s)
  · exact testFault_agreesLanes l s

/-! ## The Acquisition Engine's reports -/

/-- A channel's report reaches nothing but the lanes and what they feed. -/
theorem reportChannel_agreesLanes (c : ChannelNo) (before after : ChannelState) (s : State) :
    (reportChannel c before after s).AgreesButLanes s := by
  unfold reportChannel
  split
  · exact foldl_relates State.AgreesButLanes .refl (fun h k => State.AgreesButLanes.trans h k) _
      (fun s l => laneFaults_agreesLanes l s) _ _
  · split
    · exact foldl_relates State.AgreesButLanes .refl (fun h k => State.AgreesButLanes.trans h k) _
        (fun s l => testFault_agreesLanes l s) _ _
    · exact .refl s

/-- A change of a channel record changes that record, and otherwise the lanes and what they feed. -/
theorem changeChannel_agreesLanes (c : ChannelNo) (f : Channel → Channel) (s : State) :
    (changeChannel c f s).AgreesButLanes (s.updateChannel c f) := reportChannel_agreesLanes c _ _ _

theorem changeChannel_channels (c : ChannelNo) (f : Channel → Channel) (s : State) :
    (changeChannel c f s).engine.channels = s.engine.channels.set c (f (s.engine.channels.get c)) := by
  rw [(changeChannel_agreesLanes c f s).engine]
  rfl

/-- The results of a round are set back to none when they are delivered. -/
theorem deliverResults_result (s : State) (c : ChannelNo) : ((deliverResults s).engine.channels.get c).result = .none := by
  simp [deliverResults]

/-- The delivery of a round's results changes the round results, and otherwise the lanes and what they feed. -/
theorem deliverResults_agreesLanes (s : State) :
    (deliverResults s).AgreesButLanes (s.updateEngine fun e =>
      { e with channels := e.channels.map fun c => { c with result := RoundResult.none } }) := by
  have h := eachLane_agreesLanes deliverRound_agreesLanes s
  unfold deliverResults
  unfold State.AgreesButLanes State.laneFreeView State.aisleView State.queueView at h ⊢
  simp only [State.updateEngine_station, State.updateEngine_shock, State.updateEngine_line, State.updateEngine_peers,
    State.updateEngine_reportTimer, State.updateEngine_rateTick, State.updateEngine_pending, State.updateEngine_engine] at h ⊢
  have he := congrArg State.engine h
  simp only at he
  rw [he]
  injection h with h1 h2 h3 h4 h5 h6 h7 h8 h9 h10 h11 h12
  simp only [h1, h4, h5, h7, h9, h10, h12]

end Sys2Proof.Machine
end

