-- ==== Sys2Proof/Laws/Peers.lean ====
section
/-! SUPPORT. What the table operations keep of the Peer Stock Table: its order, its keys and its size. -/

namespace Sys2Proof.Machine

/-- The keys of a table, in table order. -/
def tableKeys (ps : List PeerEntry) : List Nat := ps.map PeerEntry.keyOrder

/-- Two reports have the same key place exactly when one has the other's sender and lane. -/
theorem keyOrder_eq_iff (a b : PeerEntry) : a.keyOrder = b.keyOrder ↔ b.hasKey a.sender a.lane = true := by
  simp only [PeerEntry.keyOrder, PeerEntry.hasKey, Bool.and_eq_true, decide_eq_true_eq, Fin.ext_iff]
  have := a.lane.isLt
  have := b.lane.isLt
  constructor
  · intro h
    constructor <;> omega
  · rintro ⟨h1, h2⟩
    omega

theorem overwritePeer_keys (e : PeerEntry) (ps : List PeerEntry) : tableKeys (overwritePeer e ps) = tableKeys ps := by
  unfold tableKeys overwritePeer
  rw [List.map_map]
  refine List.map_congr_left fun a _ => ?_
  simp only [Function.comp]
  split
  · next h => exact (keyOrder_eq_iff e a).mpr h
  · rfl

theorem overwritePeer_length (e : PeerEntry) (ps : List PeerEntry) : (overwritePeer e ps).length = ps.length := by
  simp [overwritePeer]

theorem removePeer_sorted (sender : Nat) (lane : LaneNo) {ps : List PeerEntry} (h : (tableKeys ps).Pairwise (· < ·)) :
    (tableKeys (removePeer sender lane ps)).Pairwise (· < ·) :=
  List.Pairwise.sublist ((List.filter_sublist).map _) h

theorem removePeer_length (o : PeerEntry) {ps : List PeerEntry} (h : o ∈ ps) :
    (removePeer o.sender o.lane ps).length + 1 ≤ ps.length := by
  unfold removePeer
  have : (ps.filter fun e => !e.hasKey o.sender o.lane).length < ps.length := by
    rw [List.length_filter_lt_length_iff_exists]
    exact ⟨o, h, by simp [PeerEntry.hasKey]⟩
  omega

/-- A key that the table does not hold is not there after a removal. -/
theorem removePeer_find {sender : Nat} {lane : LaneNo} (sender' : Nat) (lane' : LaneNo) {ps : List PeerEntry}
    (h : findPeer sender lane ps = none) : findPeer sender lane (removePeer sender' lane' ps) = none := by
  unfold findPeer removePeer at *
  rw [List.find?_eq_none] at *
  exact fun x hx => h x (List.mem_filter.mp hx).1

theorem insertPeer_mem (e : PeerEntry) (ps : List PeerEntry) (k : Nat) :
    k ∈ tableKeys (insertPeer e ps) ↔ k = e.keyOrder ∨ k ∈ tableKeys ps := by
  unfold tableKeys
  induction ps with
  | nil => simp [insertPeer]
  | cons a ps ih =>
    unfold insertPeer
    split
    · simp
    · rw [List.map_cons, List.mem_cons, ih, List.map_cons, List.mem_cons]
      tauto

theorem insertPeer_length (e : PeerEntry) (ps : List PeerEntry) : (insertPeer e ps).length = ps.length + 1 := by
  induction ps with
  | nil => rfl
  | cons a ps ih => unfold insertPeer; split <;> simp [ih]

/-- A new key goes to its place. -/
theorem insertPeer_sorted {e : PeerEntry} {ps : List PeerEntry} (hn : findPeer e.sender e.lane ps = none)
    (h : (tableKeys ps).Pairwise (· < ·)) : (tableKeys (insertPeer e ps)).Pairwise (· < ·) := by
  unfold tableKeys at h ⊢
  induction ps with
  | nil => simp [insertPeer]
  | cons a ps ih =>
    unfold findPeer at hn
    rw [List.find?_eq_none] at hn
    have hne : ¬ e.keyOrder = a.keyOrder := by
      rw [keyOrder_eq_iff]
      exact hn a (by simp)
    rw [List.map_cons, List.pairwise_cons] at h
    unfold insertPeer
    split
    · next hlt =>
      rw [List.map_cons, List.pairwise_cons]
      refine ⟨fun k hk => ?_, by rw [List.map_cons, List.pairwise_cons]; exact h⟩
      rw [List.map_cons, List.mem_cons] at hk
      rcases hk with rfl | hk
      · exact hlt
      · exact hlt.trans (h.1 k hk)
    · next hlt =>
      rw [List.map_cons, List.pairwise_cons]
      refine ⟨fun k hk => ?_, ih ?_ h.2⟩
      · rcases (insertPeer_mem e ps k).mp hk with rfl | hk
        · omega
        · exact h.1 k hk
      · unfold findPeer
        rw [List.find?_eq_none]
        exact fun x hx => hn x (by simp [hx])

/-- The oldest STALE entry is one of the table's. -/
theorem oldestStale_mem {ps : List PeerEntry} {o : PeerEntry} (h : oldestStale ps = some o) : o ∈ ps := by
  induction ps generalizing o with
  | nil => cases h
  | cons a ps ih =>
    unfold oldestStale at h
    split at h
    · split at h
      · next b hb =>
        split at h
        · injection h with h
          simp [h]
        · injection h with h
          simp [← h, ih hb]
      · injection h with h
        simp [h]
    · simp [ih h]

/-- The table's notices to the groups change no entry. -/
theorem notice_peers (before after : Option PeerEntry) (s : State) : (notice before after s).peers = s.peers :=
  peersKept.notice before after s

/-- The table stands without the entry that gave way and with the new one. -/
theorem replaceReport_peers (old e : PeerEntry) (s : State) :
    (replaceReport old e s).peers = insertPeer e (removePeer old.sender old.lane s.peers) := (notice_peers _ _ _).trans (notice_peers _ _ _)

theorem peersSound_overwrite (e : PeerEntry) {s : State} (h : PeersSound s) :
    PeersSound { s with peers := overwritePeer e s.peers } := by
  refine ⟨?_, ?_⟩
  · show (overwritePeer e s.peers).length ≤ 48
    rw [overwritePeer_length]
    exact h.1
  · show (tableKeys (overwritePeer e s.peers)).Pairwise (· < ·)
    rw [overwritePeer_keys]
    exact h.2

/-- Soundness follows the entries alone. -/
theorem PeersSound.of {s t : State} (h : PeersSound s) (k : t.peers = s.peers) : PeersSound t := by
  unfold PeersSound
  rw [k]
  exact h

/-- A report that is taken keeps the table sound (R117 to R122). -/
theorem takeReport_sound (e : PeerEntry) {s : State} (h : PeersSound s) : PeersSound (takeReport e s) := by
  unfold takeReport
  split
  · unfold overwriteReport
    dsimp only
    split
    · exact peersSound_overwrite e h
    · exact (peersSound_overwrite e h).of (notice_peers _ _ _)
  · next hf =>
    split
    · next hl =>
      refine PeersSound.of (s := { s with peers := insertPeer e s.peers }) ⟨?_, insertPeer_sorted hf h.2⟩ (notice_peers _ _ _)
      unfold peerCapacity at hl
      show (insertPeer e s.peers).length ≤ 48
      rw [insertPeer_length]
      omega
    · split
      · next o ho =>
        have hs : PeersSound { s with peers := insertPeer e (removePeer o.sender o.lane s.peers) } := by
          refine ⟨?_, insertPeer_sorted (removePeer_find _ _ hf) (removePeer_sorted _ _ h.2)⟩
          show (insertPeer e (removePeer o.sender o.lane s.peers)).length ≤ 48
          rw [insertPeer_length]
          have := removePeer_length o (oldestStale_mem ho)
          have := h.1
          omega
        exact hs.of (replaceReport_peers o e s)
      · exact h

/-- An entry that becomes STALE keeps the table sound (R123). -/
theorem ageEntry_sound (sender : Nat) (lane : LaneNo) {s : State} (h : PeersSound s) : PeersSound (ageEntry sender lane s) := by
  unfold ageEntry
  split
  · exact h
  · split
    · exact (peersSound_overwrite _ h).of (notice_peers _ _ _)
    · exact h

/-- An entry that is removed keeps the table sound (R124). -/
theorem forgetEntry_sound (sender : Nat) (lane : LaneNo) {s : State} (h : PeersSound s) :
    PeersSound (forgetEntry sender lane s) := by
  unfold forgetEntry
  split
  · exact h
  · split
    · exact PeersSound.of (s := { s with peers := removePeer sender lane s.peers })
        ⟨(List.length_filter_le _ _).trans h.1, removePeer_sorted _ _ h.2⟩ (notice_peers _ _ _)
    · exact h

end Sys2Proof.Machine
end

