-- ==== Sys2Proof/Laws/PerInstr.lean ====
section
/-! SUPPORT. A statement for each command as syntax: a command that brings no bytes from a bus is well formed. -/

namespace Sys2Proof

/-- The bytes that the end of a converter transaction brings. -/
def ConverterEnd.bytes : ConverterEnd → List Byte
  | .bytesRead status high middle low => [status, high, middle, low]
  | .notAcknowledged => []

/-- The bytes that a command brings from a bus, if its row brings any. -/
def Instr.bytes : Instr → Option (List Byte)
  | .powerOnReset => none
  | .resetInput => none
  | .resetEnd _ => none
  | .warmUpEnd _ _ => none
  | .configSegmentEnd _ bytes _ => some bytes
  | .configAcknowledgeMissing _ _ => none
  | .roundTick _ _ => none
  | .converterTransactionComplete _ result _ => some result.bytes
  | .stretchTimeout _ hold => some hold.received
  | .stretchStop _ _ => none
  | .busHeld _ _ => none
  | .supplyMonitorLow _ => none
  | .supplyMonitorHigh _ => none
  | .brownOutEnd _ _ => none
  | .lineIdle _ => none
  | .lineBusy _ => none
  | .framingFault _ => none
  | .lineBreak _ => none
  | .frameGapTimeout gap => some gap.chars
  | .bodyLengthTooLong _ sender kind length => some [sender, kind, length]
  | .frameRejected _ chars => some chars
  | .stockReceived _ chars => some chars
  | .surveyReceived _ chars => some chars
  | .disturbReceived _ chars => some chars
  | .raiseReceived _ chars => some chars
  | .clearReceived _ chars => some chars
  | .take _ chars => some chars
  | .takeRelease _ chars => some chars
  | .query _ chars => some chars
  | .restart _ frame => some frame.chars
  | .statusFrameReceived _ chars => some chars
  | .attemptBegin _ => none
  | .frameSent _ => none
  | .collision _ => none
  | .jamEnd _ => none
  | .notBeforePassed _ => none
  | .stuckMeasurementExpiry _ => none
  | .listenOnlySecondTimer _ => none
  | .disturbExpiry _ => none
  | .buttonInputChange _ _ _ => none
  | .press _ _ => none
  | .release _ _ => none
  | .longPress _ _ => none
  | .refusalFlashEnd _ _ => none
  | .patternOriginAdvance _ _ => none
  | .holdTimerExpiry _ _ => none
  | .reportTimerExpiry _ => none
  | .surveyDelayEnd _ _ => none
  | .holdoffExpiry _ => none
  | .sendInhibitExpiry _ => none
  | .entryAged _ _ _ => none
  | .entryForgotten _ _ _ => none
  | .rateTick _ => none
  | .deferenceExpiry _ _ => none
  | .repeatExpiry _ _ => none
  | .watchExpiry _ _ => none
  | .takenExpiry _ _ => none
  | .joinSurveyOffer _ => none
  | .joiningEnd _ => none
  | .busRecoveryComplete _ _ => none
  | .readyCharacterReceived _ value => some [value]

/-- A command that brings no bytes is well formed. -/
def Laws.Operands.Statement (i : Instr) : Prop := i.bytes = none → i.wf = true

theorem Laws.Operands.powerOnReset :
    Laws.Operands.Statement (.powerOnReset) := fun _ => rfl

theorem Laws.Operands.resetInput :
    Laws.Operands.Statement (.resetInput) := fun _ => rfl

theorem Laws.Operands.resetEnd (straps : BitVec 6) :
    Laws.Operands.Statement (.resetEnd straps) := fun _ => rfl

theorem Laws.Operands.warmUpEnd (elapsed : Nat) (dataHigh : Bool) :
    Laws.Operands.Statement (.warmUpEnd elapsed dataHigh) := fun _ => rfl

theorem Laws.Operands.configSegmentEnd (elapsed : Nat) (bytes : List Byte) (dataHigh : Bool) :
    Laws.Operands.Statement (.configSegmentEnd elapsed bytes dataHigh) := fun h => by cases h

theorem Laws.Operands.configAcknowledgeMissing (elapsed : Nat) (dataHigh : Bool) :
    Laws.Operands.Statement (.configAcknowledgeMissing elapsed dataHigh) := fun _ => rfl

theorem Laws.Operands.roundTick (elapsed : Nat) (dataHigh : Bool) :
    Laws.Operands.Statement (.roundTick elapsed dataHigh) := fun _ => rfl

theorem Laws.Operands.converterTransactionComplete (elapsed : Nat) (result : ConverterEnd) (dataHigh : Bool) :
    Laws.Operands.Statement (.converterTransactionComplete elapsed result dataHigh) := fun _ => rfl

theorem Laws.Operands.stretchTimeout (elapsed : Nat) (hold : HoldFailure) :
    Laws.Operands.Statement (.stretchTimeout elapsed hold) := fun h => by cases h

theorem Laws.Operands.stretchStop (elapsed : Nat) (dataHigh : Bool) :
    Laws.Operands.Statement (.stretchStop elapsed dataHigh) := fun _ => rfl

theorem Laws.Operands.busHeld (elapsed : Nat) (dataHigh : Bool) :
    Laws.Operands.Statement (.busHeld elapsed dataHigh) := fun _ => rfl

theorem Laws.Operands.supplyMonitorLow (elapsed : Nat) :
    Laws.Operands.Statement (.supplyMonitorLow elapsed) := fun _ => rfl

theorem Laws.Operands.supplyMonitorHigh (elapsed : Nat) :
    Laws.Operands.Statement (.supplyMonitorHigh elapsed) := fun _ => rfl

theorem Laws.Operands.brownOutEnd (elapsed : Nat) (dataHigh : Bool) :
    Laws.Operands.Statement (.brownOutEnd elapsed dataHigh) := fun _ => rfl

theorem Laws.Operands.lineIdle (elapsed : Nat) :
    Laws.Operands.Statement (.lineIdle elapsed) := fun _ => rfl

theorem Laws.Operands.lineBusy (elapsed : Nat) :
    Laws.Operands.Statement (.lineBusy elapsed) := fun _ => rfl

theorem Laws.Operands.framingFault (elapsed : Nat) :
    Laws.Operands.Statement (.framingFault elapsed) := fun _ => rfl

theorem Laws.Operands.lineBreak (elapsed : Nat) :
    Laws.Operands.Statement (.lineBreak elapsed) := fun _ => rfl

theorem Laws.Operands.frameGapTimeout (gap : FrameGap) :
    Laws.Operands.Statement (.frameGapTimeout gap) := fun h => by cases h

theorem Laws.Operands.bodyLengthTooLong (elapsed : Nat) (sender kind length : Byte) :
    Laws.Operands.Statement (.bodyLengthTooLong elapsed sender kind length) := fun h => by cases h

theorem Laws.Operands.frameRejected (elapsed : Nat) (chars : List Byte) :
    Laws.Operands.Statement (.frameRejected elapsed chars) := fun h => by cases h

theorem Laws.Operands.stockReceived (elapsed : Nat) (chars : List Byte) :
    Laws.Operands.Statement (.stockReceived elapsed chars) := fun h => by cases h

theorem Laws.Operands.surveyReceived (elapsed : Nat) (chars : List Byte) :
    Laws.Operands.Statement (.surveyReceived elapsed chars) := fun h => by cases h

theorem Laws.Operands.disturbReceived (elapsed : Nat) (chars : List Byte) :
    Laws.Operands.Statement (.disturbReceived elapsed chars) := fun h => by cases h

theorem Laws.Operands.raiseReceived (elapsed : Nat) (chars : List Byte) :
    Laws.Operands.Statement (.raiseReceived elapsed chars) := fun h => by cases h

theorem Laws.Operands.clearReceived (elapsed : Nat) (chars : List Byte) :
    Laws.Operands.Statement (.clearReceived elapsed chars) := fun h => by cases h

theorem Laws.Operands.take (elapsed : Nat) (chars : List Byte) :
    Laws.Operands.Statement (.take elapsed chars) := fun h => by cases h

theorem Laws.Operands.takeRelease (elapsed : Nat) (chars : List Byte) :
    Laws.Operands.Statement (.takeRelease elapsed chars) := fun h => by cases h

theorem Laws.Operands.query (elapsed : Nat) (chars : List Byte) :
    Laws.Operands.Statement (.query elapsed chars) := fun h => by cases h

theorem Laws.Operands.restart (elapsed : Nat) (frame : RestartFrame) :
    Laws.Operands.Statement (.restart elapsed frame) := fun h => by cases h

theorem Laws.Operands.statusFrameReceived (elapsed : Nat) (chars : List Byte) :
    Laws.Operands.Statement (.statusFrameReceived elapsed chars) := fun h => by cases h

theorem Laws.Operands.attemptBegin (elapsed : Nat) :
    Laws.Operands.Statement (.attemptBegin elapsed) := fun _ => rfl

theorem Laws.Operands.frameSent (elapsed : Nat) :
    Laws.Operands.Statement (.frameSent elapsed) := fun _ => rfl

theorem Laws.Operands.collision (elapsed : Nat) :
    Laws.Operands.Statement (.collision elapsed) := fun _ => rfl

theorem Laws.Operands.jamEnd (elapsed : Nat) :
    Laws.Operands.Statement (.jamEnd elapsed) := fun _ => rfl

theorem Laws.Operands.notBeforePassed (elapsed : Nat) :
    Laws.Operands.Statement (.notBeforePassed elapsed) := fun _ => rfl

theorem Laws.Operands.stuckMeasurementExpiry (elapsed : Nat) :
    Laws.Operands.Statement (.stuckMeasurementExpiry elapsed) := fun _ => rfl

theorem Laws.Operands.listenOnlySecondTimer (elapsed : Nat) :
    Laws.Operands.Statement (.listenOnlySecondTimer elapsed) := fun _ => rfl

theorem Laws.Operands.disturbExpiry (elapsed : Nat) :
    Laws.Operands.Statement (.disturbExpiry elapsed) := fun _ => rfl

theorem Laws.Operands.buttonInputChange (elapsed : Nat) (lane : LaneNo) (high : Bool) :
    Laws.Operands.Statement (.buttonInputChange elapsed lane high) := fun _ => rfl

theorem Laws.Operands.press (elapsed : Nat) (lane : LaneNo) :
    Laws.Operands.Statement (.press elapsed lane) := fun _ => rfl

theorem Laws.Operands.release (elapsed : Nat) (lane : LaneNo) :
    Laws.Operands.Statement (.release elapsed lane) := fun _ => rfl

theorem Laws.Operands.longPress (elapsed : Nat) (lane : LaneNo) :
    Laws.Operands.Statement (.longPress elapsed lane) := fun _ => rfl

theorem Laws.Operands.refusalFlashEnd (elapsed : Nat) (lane : LaneNo) :
    Laws.Operands.Statement (.refusalFlashEnd elapsed lane) := fun _ => rfl

theorem Laws.Operands.patternOriginAdvance (elapsed : Nat) (origin : OriginName) :
    Laws.Operands.Statement (.patternOriginAdvance elapsed origin) := fun _ => rfl

theorem Laws.Operands.holdTimerExpiry (elapsed : Nat) (lane : LaneNo) :
    Laws.Operands.Statement (.holdTimerExpiry elapsed lane) := fun _ => rfl

theorem Laws.Operands.reportTimerExpiry (elapsed : Nat) :
    Laws.Operands.Statement (.reportTimerExpiry elapsed) := fun _ => rfl

theorem Laws.Operands.surveyDelayEnd (elapsed : Nat) (lane : LaneNo) :
    Laws.Operands.Statement (.surveyDelayEnd elapsed lane) := fun _ => rfl

theorem Laws.Operands.holdoffExpiry (elapsed : Nat) :
    Laws.Operands.Statement (.holdoffExpiry elapsed) := fun _ => rfl

theorem Laws.Operands.sendInhibitExpiry (elapsed : Nat) :
    Laws.Operands.Statement (.sendInhibitExpiry elapsed) := fun _ => rfl

theorem Laws.Operands.entryAged (elapsed : Nat) (sender : Nat) (lane : LaneNo) :
    Laws.Operands.Statement (.entryAged elapsed sender lane) := fun _ => rfl

theorem Laws.Operands.entryForgotten (elapsed : Nat) (sender : Nat) (lane : LaneNo) :
    Laws.Operands.Statement (.entryForgotten elapsed sender lane) := fun _ => rfl

theorem Laws.Operands.rateTick (elapsed : Nat) :
    Laws.Operands.Statement (.rateTick elapsed) := fun _ => rfl

theorem Laws.Operands.deferenceExpiry (elapsed : Nat) (group : GroupNo) :
    Laws.Operands.Statement (.deferenceExpiry elapsed group) := fun _ => rfl

theorem Laws.Operands.repeatExpiry (elapsed : Nat) (group : GroupNo) :
    Laws.Operands.Statement (.repeatExpiry elapsed group) := fun _ => rfl

theorem Laws.Operands.watchExpiry (elapsed : Nat) (group : GroupNo) :
    Laws.Operands.Statement (.watchExpiry elapsed group) := fun _ => rfl

theorem Laws.Operands.takenExpiry (elapsed : Nat) (group : GroupNo) :
    Laws.Operands.Statement (.takenExpiry elapsed group) := fun _ => rfl

theorem Laws.Operands.joinSurveyOffer (elapsed : Nat) :
    Laws.Operands.Statement (.joinSurveyOffer elapsed) := fun _ => rfl

theorem Laws.Operands.joiningEnd (elapsed : Nat) :
    Laws.Operands.Statement (.joiningEnd elapsed) := fun _ => rfl

theorem Laws.Operands.busRecoveryComplete (elapsed : Nat) (dataHigh : Bool) :
    Laws.Operands.Statement (.busRecoveryComplete elapsed dataHigh) := fun _ => rfl

theorem Laws.Operands.readyCharacterReceived (elapsed : Nat) (value : Byte) :
    Laws.Operands.Statement (.readyCharacterReceived elapsed value) := fun _ => rfl

end Sys2Proof
end

