-- ==== Sys2Proof/Laws/Queue.lean ====
section
/-! SUPPORT. What the queue operations keep of the shape of the Transmit Queue. -/

namespace Sys2Proof.Machine

/-! ## The shape of a queue -/

/-- The identities of the WAITING entries, in queue order. -/
def waitingIdentities (q : List Entry) : List Identity := (q.filter Entry.waiting).map fun e => e.body.identity

/-- The number of entries that are ON LINE. -/
def onLineCount (q : List Entry) : Nat := (q.filter fun e => !e.waiting).length

/-- At most 8 entries, no identity waiting twice, and `n` entries ON LINE. -/
def QueueShape (n : Nat) (q : List Entry) : Prop :=
  q.length ≤ 8 ∧ (waitingIdentities q).Nodup ∧ onLineCount q = n

theorem queueSound_iff (s : State) : QueueSound s ↔ QueueShape (if s.line.attempt.isSome then 1 else 0) s.queue := Iff.rfl

theorem waitingIdentities_map {f : Entry → Entry} (hw : ∀ e, (f e).waiting = e.waiting)
    (hi : ∀ e, (f e).body.identity = e.body.identity) (q : List Entry) : waitingIdentities (q.map f) = waitingIdentities q := by
  unfold waitingIdentities
  rw [List.filter_map, List.map_map]
  have h1 : Entry.waiting ∘ f = Entry.waiting := funext hw
  have h2 : (fun e : Entry => e.body.identity) ∘ f = fun e => e.body.identity := funext hi
  rw [h1, h2]

theorem onLineCount_map {f : Entry → Entry} (hw : ∀ e, (f e).waiting = e.waiting) (q : List Entry) :
    onLineCount (q.map f) = onLineCount q := by
  unfold onLineCount
  rw [List.filter_map, List.length_map]
  have h1 : (fun e : Entry => !e.waiting) ∘ f = fun e => !e.waiting := funext fun e => by simp [hw]
  rw [h1]

theorem onLineCount_append (p q : List Entry) : onLineCount (p ++ q) = onLineCount p + onLineCount q := by
  simp [onLineCount]

theorem waitingIdentities_append (p q : List Entry) :
    waitingIdentities (p ++ q) = waitingIdentities p ++ waitingIdentities q := by
  simp [waitingIdentities]

theorem mem_waitingIdentities {q : List Entry} {i : Identity} :
    i ∈ waitingIdentities q ↔ (q.any fun e => e.waitsFor i) = true := by
  simp [waitingIdentities, Entry.waitsFor, and_assoc]

namespace QueueShape

variable {n : Nat} {q : List Entry}

/-- A change of the entries that keeps every entry's status and identity. -/
theorem map (h : QueueShape n q) {f : Entry → Entry} (hw : ∀ e, (f e).waiting = e.waiting)
    (hi : ∀ e, (f e).body.identity = e.body.identity) : QueueShape n (q.map f) :=
  ⟨by rw [List.length_map]; exact h.1, by rw [waitingIdentities_map hw hi]; exact h.2.1,
    by rw [onLineCount_map hw]; exact h.2.2⟩

theorem coalesced (h : QueueShape n q) (b : Body) (now : Time) : QueueShape n (coalesceInto b now q) := by
  refine h.map (fun e => ?_) (fun e => ?_)
  · split
    · unfold Entry.coalesce; split <;> rfl
    · rfl
  · split
    · next hw =>
      simp only [Entry.waitsFor, Bool.and_eq_true, decide_eq_true_eq] at hw
      rw [hw.2]
      unfold Entry.coalesce
      split
      all_goals first
        | rfl
        | exact hw.2
    · rfl

theorem appended (h : QueueShape n q) {b : Body} {now : Time} (hb : (q.any fun e => e.waitsFor b.identity) = false)
    (hl : q.length < 8) : QueueShape n (q ++ [Entry.new b now]) := by
  refine ⟨by rw [List.length_append, List.length_singleton]; omega, ?_, ?_⟩
  · rw [waitingIdentities_append]
    have e : waitingIdentities [Entry.new b now] = [b.identity] := rfl
    rw [e, List.nodup_append]
    refine ⟨h.2.1, List.nodup_singleton _, fun a ha c hc => ?_⟩
    rw [List.mem_singleton] at hc
    rw [hc]
    rintro rfl
    rw [mem_waitingIdentities] at ha
    rw [ha] at hb
    exact Bool.noConfusion hb
  · rw [onLineCount_append]
    exact h.2.2

/-- An entry that waited is left out. -/
theorem without (h : QueueShape n q) {p r : List Entry} {v : Entry} (hq : q = p ++ v :: r) (hv : v.waiting = true) :
    QueueShape n (p ++ r) ∧ (p ++ r).length < q.length := by
  subst hq
  have hs : List.Sublist (p ++ r) (p ++ v :: r) := (List.Sublist.refl p).append (List.sublist_cons_self v r)
  refine ⟨⟨hs.length_le.trans h.1, ?_, ?_⟩, by simp⟩
  · exact h.2.1.sublist ((hs.filter _).map _)
  · have k := h.2.2
    simpa [onLineCount, hv] using k

end QueueShape

theorem takeLast_splits {test : Entry → Bool} {q : List Entry} {v : Entry} {rest : List Entry}
    (h : takeLast test q = some (v, rest)) : ∃ p r, q = p ++ v :: r ∧ rest = p ++ r ∧ test v = true := by
  induction q generalizing rest with
  | nil => cases h
  | cons a q ih =>
    unfold takeLast at h
    split at h
    · next b rest' hb =>
      obtain ⟨p, r, h1, h2, h3⟩ := ih (rest := rest') (by rw [hb]; injection h with h; injection h with h _; rw [h])
      injection h with h
      injection h with _ h
      exact ⟨a :: p, r, by rw [h1]; rfl, by rw [← h, h2]; rfl, h3⟩
    · split at h
      · next ht =>
        injection h with h
        injection h with h k
        subst h
        exact ⟨[], q, rfl, k.symm, ht⟩
      · cases h

/-- The entry that gives way is a WAITING one of the queue, and the rest is the queue without it. -/
theorem victim_splits {c : Nat} {q : List Entry} {v : Entry} {rest : List Entry} (h : victim c q = some (v, rest)) :
    ∃ p r, q = p ++ v :: r ∧ rest = p ++ r ∧ v.waiting = true ∧ c < v.body.priority := by
  unfold victim at h
  obtain ⟨k, _, hk⟩ := List.exists_of_findSome?_eq_some h
  split at hk
  · next hc =>
    obtain ⟨p, r, h1, h2, h3⟩ := takeLast_splits hk
    simp only [Bool.and_eq_true, decide_eq_true_eq] at h3
    exact ⟨p, r, h1, h2, h3.1, by omega⟩
  · cases hk

namespace QueueShape

variable {n : Nat} {q : List Entry}

theorem evicted (h : QueueShape n q) {b : Body} {now : Time} {v : Entry} {rest : List Entry}
    (hb : (q.any fun e => e.waitsFor b.identity) = false) (hv : victim b.priority q = some (v, rest)) :
    QueueShape n (rest ++ [Entry.new b now]) := by
  obtain ⟨p, r, hq, hr, hw, _⟩ := victim_splits hv
  obtain ⟨hs, hl⟩ := h.without hq hw
  rw [← hr] at hs hl
  refine hs.appended ?_ (by have := h.1; omega)
  rw [Bool.eq_false_iff] at hb ⊢
  intro ha
  apply hb
  rw [List.any_eq_true] at ha ⊢
  obtain ⟨x, hx, hw⟩ := ha
  refine ⟨x, ?_, hw⟩
  rw [hr, List.mem_append] at hx
  rw [hq, List.mem_append, List.mem_cons]
  tauto

/-- Entries that wait are taken out. -/
theorem filtered (h : QueueShape n q) {keep : Entry → Bool} (hk : ∀ e, keep e = false → e.waiting = true) :
    QueueShape n (q.filter keep) := by
  refine ⟨(List.length_filter_le _ _).trans h.1, h.2.1.sublist (((List.filter_sublist).filter _).map _), ?_⟩
  have e : onLineCount (q.filter keep) = onLineCount q := by
    unfold onLineCount
    rw [List.filter_filter]
    congr 2
    funext x
    cases hx : keep x with
    | true => simp
    | false => simp [hk x hx]
  rw [e]
  exact h.2.2

theorem marked (h : QueueShape n q) (g : GroupNo) : QueueShape n (markWithdrawn g q) :=
  h.map (fun e => by split <;> rfl) (fun e => by split <;> rfl)

theorem withdrawn (h : QueueShape n q) (g : GroupNo) :
    QueueShape n ((markWithdrawn g q).filter fun e => !e.waitingRaise g) := by
  refine (h.marked g).filtered fun e he => ?_
  simp only [Entry.waitingRaise, Bool.not_eq_false', Bool.and_eq_true] at he
  exact he.1

theorem busySeen (h : QueueShape n q) (moment : Time) : QueueShape n (markBusySeen moment q) :=
  h.map (fun e => by split <;> rfl) (fun e => by split <;> rfl)

theorem dropped (h : QueueShape n q) : QueueShape 0 (dropOnLine q) := by
  refine ⟨(List.length_filter_le _ _).trans h.1, h.2.1.sublist (((List.filter_sublist).filter _).map _), ?_⟩
  unfold onLineCount dropOnLine
  rw [List.filter_filter]
  simp

theorem none_onLine {e : Entry} (h : QueueShape 0 q) (he : e ∈ q) : e.waiting = true := by
  have k := h.2.2
  unfold onLineCount at k
  rw [List.length_eq_zero_iff, List.filter_eq_nil_iff] at k
  simpa using k e he

/-- With no entry found ON LINE there is none. -/
theorem zero_of_onLineEntry (h : QueueShape n q) (ho : onLineEntry q = none) : n = 0 := by
  unfold onLineEntry at ho
  rw [List.find?_eq_none] at ho
  rw [← h.2.2]
  unfold onLineCount
  rw [List.length_eq_zero_iff, List.filter_eq_nil_iff]
  exact ho

/-- The one ON LINE entry of a queue splits it into WAITING ones. -/
theorem splits (h : QueueShape 1 q) {e : Entry} (ho : onLineEntry q = some e) :
    ∃ p r, q = p ++ e :: r ∧ e.waiting = false ∧ (∀ x ∈ p, x.waiting = true) ∧ (∀ x ∈ r, x.waiting = true) := by
  unfold onLineEntry at ho
  rw [List.find?_eq_some_iff_append] at ho
  obtain ⟨he, p, r, hq, hp⟩ := ho
  simp only [Bool.not_eq_true'] at he
  have hp' : ∀ x ∈ p, x.waiting = true := by simpa using hp
  refine ⟨p, r, hq, he, hp', fun x hx => ?_⟩
  have k := h.2.2
  have hp0 : onLineCount p = 0 := by
    unfold onLineCount
    rw [List.length_eq_zero_iff, List.filter_eq_nil_iff]
    simpa using hp'
  have hc : onLineCount (e :: r) = 1 + onLineCount r := by simp [onLineCount, he, Nat.add_comm]
  rw [hq, onLineCount_append, hp0, hc] at k
  have k0 : onLineCount r = 0 := by omega
  unfold onLineCount at k0
  rw [List.length_eq_zero_iff, List.filter_eq_nil_iff] at k0
  simpa using k0 x hx

theorem updateOnLine_splits {f : Entry → Entry} {p r : List Entry} {e : Entry} (he : e.waiting = false)
    (hp : ∀ x ∈ p, x.waiting = true) (hr : ∀ x ∈ r, x.waiting = true) :
    updateOnLine f (p ++ e :: r) = p ++ f e :: r := by
  unfold updateOnLine
  rw [List.map_append, List.map_cons]
  have hm : ∀ l : List Entry, (∀ x ∈ l, x.waiting = true) → (l.map fun x => if x.waiting then x else f x) = l := by
    intro l hl
    rw [List.map_congr_left (g := id) fun x hx => by simp [hl x hx], List.map_id]
  rw [hm p hp, hm r hr, he]
  rfl

theorem returned (h : QueueShape 1 q) {e : Entry} (ho : onLineEntry q = some e) {f : Entry → Entry}
    (hf : ∀ x, (f x).body = x.body) (hn : (q.any fun o => o.waitsFor e.body.identity) = false) :
    QueueShape 0 (updateOnLine (fun o => { f o with status := .waiting }) q) := by
  obtain ⟨p, r, hq, he, hp, hr⟩ := h.splits ho
  have hd : waitingIdentities q = waitingIdentities p ++ waitingIdentities r := by
    rw [hq, waitingIdentities_append]
    simp [waitingIdentities, he]
  have hnot : e.body.identity ∉ waitingIdentities q := by
    rw [mem_waitingIdentities, hn]
    exact Bool.false_ne_true
  have hu : updateOnLine (fun o => { f o with status := .waiting }) q = p ++ { f e with status := .waiting } :: r := by
    rw [hq]
    exact updateOnLine_splits he hp hr
  rw [hu]
  refine ⟨?_, ?_, ?_⟩
  · have k := h.1
    rw [hq] at k
    simpa using k
  · have hw : waitingIdentities (p ++ { f e with status := .waiting } :: r)
        = waitingIdentities p ++ e.body.identity :: waitingIdentities r := by
      rw [waitingIdentities_append]
      simp [waitingIdentities, Entry.waiting, hf]
    rw [hw]
    have k := h.2.1
    rw [hd] at k hnot
    exact List.nodup_middle.mpr (List.nodup_cons.mpr ⟨hnot, k⟩)
  · unfold onLineCount
    rw [List.length_eq_zero_iff, List.filter_eq_nil_iff]
    intro x hx
    rw [List.mem_append, List.mem_cons] at hx
    rcases hx with hx | rfl | hx
    · simp [hp x hx]
    · simp [Entry.waiting]
    · simp [hr x hx]

theorem bestEligible_sound {b : Entry} (h : bestEligible q = some b) : b ∈ q ∧ b.eligible = true := by
  unfold bestEligible at h
  obtain ⟨k, _, hk⟩ := List.exists_of_findSome?_eq_some h
  have h1 := List.mem_of_find?_eq_some hk
  have h2 := List.find?_some hk
  simp only [Bool.and_eq_true] at h2
  exact ⟨h1, h2.1⟩

theorem updateFirst_splits {test : Entry → Bool} (f : Entry → Entry) {q : List Entry} {b : Entry} (hb : b ∈ q)
    (ht : test b = true) : ∃ p e r, q = p ++ e :: r ∧ test e = true ∧ updateFirst test f q = p ++ f e :: r := by
  induction q with
  | nil => cases hb
  | cons a q ih =>
    unfold updateFirst
    split
    · next h => exact ⟨[], a, q, rfl, h, rfl⟩
    · next h =>
      rw [List.mem_cons] at hb
      rcases hb with rfl | hb
      · exact absurd ht h
      · obtain ⟨p, e, r, h1, h2, h3⟩ := ih hb
        exact ⟨a :: p, e, r, by rw [h1]; rfl, h2, by rw [h3]; rfl⟩

theorem putOnLine (h : QueueShape 0 q) {b : Entry} (hb : bestEligible q = some b) : QueueShape 1 (putOnLine q) := by
  unfold Machine.putOnLine
  rw [hb]
  obtain ⟨hm, he⟩ := bestEligible_sound hb
  obtain ⟨p, e, r, hq, ht, hu⟩ := updateFirst_splits (test := fun e => e.eligible && decide (e.body.priority = b.body.priority))
    (fun e => { e with status := .onLine, tried := true }) hm (by simp [he])
  dsimp only
  rw [hu]
  simp only [Entry.eligible, Bool.and_eq_true] at ht
  obtain ⟨hs, hl⟩ := h.without hq ht.1.1
  refine ⟨?_, ?_, ?_⟩
  · have k := h.1
    rw [hq] at k
    simpa using k
  · have k := hs.2.1
    simpa [waitingIdentities, Entry.waiting] using k
  · have k := hs.2.2
    have hc : onLineCount ({ e with status := .onLine, tried := true } :: r) = onLineCount r + 1 := by
      simp [onLineCount, Entry.waiting]
    rw [onLineCount_append] at k ⊢
    rw [hc]
    omega

end QueueShape

/-! ## The shared operations -/

/-- The operations of the aisle keep the queue's shape. -/
theorem queueShape_aisle : AisleFrame fun t s => ∀ n, QueueShape n s.queue → QueueShape n t.queue where
  refl := fun _ _ h => h
  trans := fun h k n x => h n (k n x)
  spend := fun _ _ h => h
  coalesced := fun b s _ _ h => h.coalesced b s.now
  appended := fun _ _ hb hl _ h => h.appended hb hl
  evicted := fun _ _ _ _ hb hv _ h => h.evicted hb hv
  withdrawn := fun g _ _ h => h.withdrawn g
  counted := fun _ _ _ _ h => h
  reportDue := fun _ _ _ _ h => h
  survey := fun _ _ h => h
  group := fun _ _ _ _ h => h

/-- The operations of the lanes and of the sensor bus keep the queue's shape. -/
theorem queueShape_bus : BusFrame fun t s => ∀ n, QueueShape n s.queue → QueueShape n t.queue where
  toAisleFrame := queueShape_aisle
  lane := fun _ _ _ _ h => h
  allWeighing := fun _ _ _ h => h
  shock := fun _ _ _ h => h
  drifted := fun _ _ _ h => h
  engine := fun _ _ _ h => h
  latched := fun _ _ _ h => h
  seeded := fun raw s n h => by unfold seedFrom; split <;> exact h

/-- The ON LINE entry comes back, or is removed: none is ON LINE then. -/
theorem returnEntry_shape {f : Entry → Entry} (hf : ∀ x, (f x).body = x.body) {s : State} (h : QueueShape 1 s.queue) :
    QueueShape 0 (returnEntry f s).queue := by
  unfold returnEntry
  split
  · next ho => exact absurd (h.zero_of_onLineEntry ho) (by decide)
  · next e ho =>
    split
    · exact queueShape_aisle.announceRoom _ 0 h.dropped
    · next hn =>
      simp only [Bool.or_eq_true, not_or, Bool.not_eq_true] at hn
      exact h.returned ho hf hn.1.2

/-- The ON LINE entry is removed: none is ON LINE then. -/
theorem removeOnLine_shape {tell : State → State} (ht : ∀ s n, QueueShape n s.queue → QueueShape n (tell s).queue) {n : Nat}
    {s : State} (h : QueueShape n s.queue) : QueueShape 0 (removeOnLine tell s).queue :=
  queueShape_aisle.eitherOrder (f := tell) (fun s n => ht s n) queueShape_aisle.announceRoom _ 0 h.dropped

/-- A change of TEC or REC keeps the queue's shape. -/
theorem checkLineState_shape {n : Nat} {s : State} (h : QueueShape n s.queue) : QueueShape n (checkLineState s).queue := by
  unfold checkLineState
  split
  · split
    · exact queueShape_aisle.eachGroup queueShape_aisle.alertListenOnly _ n h
    · exact h
  · split <;> exact h

end Sys2Proof.Machine
end

