-- ==== Sys2Proof/Laws/Reports.lean ====
section
/-! SUPPORT. A lane's report that is due or waits comes in the end: no offer, withdrawal or evaluation loses it. -/

namespace Sys2Proof.Machine

/-- The lane's report is due, or it waits in the queue of a lane that offers reports (R67, R113). -/
def ReportComes (s : State) (l : LaneNo) : Prop :=
  (s.lane l).service.reportDue = true
    ∨ (s.lane l).service.state.offers = true ∧ s.queue.any (fun e => e.waitsFor (.stock l)) = true

/-- Every lane keeps its state, and a report that comes still comes. -/
def KeepsReports (t s : State) : Prop :=
  (∀ l, (t.lane l).service.state = (s.lane l).service.state) ∧ ∀ l, ReportComes s l → ReportComes t l

theorem KeepsReports.refl (s : State) : KeepsReports s s := ⟨fun _ => rfl, fun _ h => h⟩

theorem KeepsReports.trans {u t s : State} (h : KeepsReports u t) (k : KeepsReports t s) : KeepsReports u s :=
  ⟨fun l => (h.1 l).trans (k.1 l), fun l x => h.2 l (k.2 l x)⟩

/-! ## The Transmit Queue -/

theorem coalesce_waitsFor (e : Entry) (b : Body) (now : Time) (h : e.waitsFor b.identity = true) (i : Identity) :
    (e.coalesce b now).waitsFor i = e.waitsFor i := by
  have hi : e.body.identity = b.identity := by simp [Entry.waitsFor] at h; exact h.2
  cases b <;> (simp only [Entry.coalesce, Entry.waitsFor, Entry.waiting, hi]; rfl)

theorem coalesceInto_waits (b : Body) (now : Time) (q : List Entry) (i : Identity) :
    (coalesceInto b now q).any (fun y => y.waitsFor i) = q.any (fun y => y.waitsFor i) := by
  unfold coalesceInto
  induction q with
  | nil => rfl
  | cons a q ih =>
    simp only [List.map_cons, List.any_cons, ih]
    congr 1
    split
    · next h => exact coalesce_waitsFor a b now h i
    · rfl

theorem offerOrRefuse_reports (b : Body) (s : State) : KeepsReports (offerOrRefuse b s).2 s := by
  unfold offerOrRefuse
  split
  · exact ⟨fun _ => rfl, fun l h => h.imp id (fun ⟨x, y⟩ => ⟨x, by rw [coalesceInto_waits]; exact y⟩)⟩
  · split
    · exact ⟨fun _ => rfl, fun l h => h.imp id (fun ⟨x, y⟩ => ⟨x, by simp only [List.any_append, y, Bool.true_or]⟩)⟩
    · exact ⟨fun _ => rfl, fun l h => h⟩

theorem updateService_lane (l m : LaneNo) (f : Service → Service) (s : State) :
    (s.updateService l f).lane m = if m = l then { s.lane l with service := f (s.lane l).service } else s.lane m :=
  Four.get_set s.lanes l m _

theorem offerOrRefuse_taken (l : LaneNo) (s t : State) (h : offerOrRefuse (s.stockBody l) s = (true, t)) :
    t.queue.any (fun y => y.waitsFor (.stock l)) = true := by
  unfold offerOrRefuse at h
  have hb : (s.stockBody l).identity = .stock l := rfl
  split at h
  · next c =>
    cases h
    show (coalesceInto _ _ _).any _ = true
    rw [coalesceInto_waits, ← hb]; exact c
  · split at h
    · cases h
      simp only [List.any_append]
      rw [Bool.or_eq_true]
      right
      simp [Entry.waitsFor, Entry.waiting, Entry.new, hb]
    · cases h

theorem laneOffer_reports (l : LaneNo) (s : State) : KeepsReports (laneOffer l s) s := by
  unfold laneOffer
  split
  · next hd =>
    have hr := offerOrRefuse_reports (s.stockBody l) s
    have ho : (s.lane l).service.state.offers = true := by simp at hd; exact hd.2
    split
    · next t ht =>
      rw [ht] at hr
      have hw := offerOrRefuse_taken l s t ht
      refine KeepsReports.trans ⟨fun m => ?_, fun m h => ?_⟩ hr
      · rw [updateService_lane]; split
        · next e => subst e; rfl
        · rfl
      · unfold ReportComes at *
        rw [updateService_lane]
        split
        · next e => subst e; exact Or.inr ⟨by rw [← hr.1] at ho; exact ho, hw⟩
        · exact h
    · next t ht => rw [ht] at hr; exact hr
  · exact .refl s

/-- A report that a cause makes due comes. -/
theorem laneReport_reports (l : LaneNo) (s : State) : KeepsReports (laneReport l s) s ∧ ReportComes (laneReport l s) l := by
  have h := laneOffer_reports l (s.updateService l fun sv => { sv with reportDue := true })
  have k : KeepsReports (s.updateService l fun sv => { sv with reportDue := true }) s := by
    refine ⟨fun m => ?_, fun m h => ?_⟩
    · rw [updateService_lane]; split
      · next e => subst e; rfl
      · rfl
    · unfold ReportComes at *
      rw [updateService_lane]; split
      · exact Or.inl rfl
      · exact h
  exact ⟨h.trans k, h.2 l (Or.inl (by rw [updateService_lane, if_pos rfl]))⟩

theorem eachLane_reports {f : LaneNo → State → State} (hf : ∀ l s, KeepsReports (f l s) s) (s : State) :
    KeepsReports (eachLane f s) s :=
  (foldl_relates KeepsReports .refl KeepsReports.trans _ (fun s l => hf l s) _ _).trans ⟨fun _ => rfl, fun _ h => h⟩

/-- An offer of another owner keeps every report coming: an evicted one is due again. -/
theorem offer_reports (b : Body) (s : State) : KeepsReports (offer b s) s := by
  unfold offer
  split
  · exact ⟨fun _ => rfl, fun l h => h.imp id (fun ⟨x, y⟩ => ⟨x, by rw [coalesceInto_waits]; exact y⟩)⟩
  · split
    · exact ⟨fun _ => rfl, fun l h => h.imp id (fun ⟨x, y⟩ => ⟨x, by simp only [List.any_append, y, Bool.true_or]⟩)⟩
    · split
      · next out rest hv =>
        set s1 := State.count .queueEvictions 1 { s with queue := rest ++ [Entry.new b s.now] } with h1
        have st : ∀ l, (s1.lane l) = s.lane l := fun _ => rfl
        have q : ∀ l, ReportComes s l → out.waitsFor (.stock l) = false → ReportComes s1 l := by
          intro l h n
          refine h.imp id fun ⟨x, y⟩ => ⟨x, ?_⟩
          obtain ⟨z, hz, hw⟩ := List.any_eq_true.1 y
          obtain ⟨p, r, hq, hr, _⟩ := victim_splits hv
          have split : z = out ∨ z ∈ rest := by
            rw [hq] at hz
            rw [hr]
            rcases List.mem_append.1 hz with m | m
            · exact Or.inr (List.mem_append_left _ m)
            · exact (List.mem_cons.1 m).imp id (List.mem_append_right _)
          rcases split with rfl | m
          · rw [hw] at n; cases n
          · show (rest ++ [Entry.new b s.now]).any _ = true
            rw [List.any_append, Bool.or_eq_true]
            exact Or.inl (List.any_eq_true.2 ⟨z, m, hw⟩)
        generalize hb : out.body = ob
        have hq : ∀ l, ob.identity ≠ .stock l → out.waitsFor (.stock l) = false := by
          intro l h; simp [Entry.waitsFor, hb, h]
        cases ob with
        | stock lane article pack count state confidence =>
          obtain ⟨r, c⟩ := laneReport_reports lane s1
          refine ⟨fun l => (r.1 l), fun l h => ?_⟩
          by_cases e : l = lane
          · subst e; exact c
          · exact r.2 l (q l h (hq l (by intro h; injection h with h; exact e h.symm)))
        | survey pairs =>
          have hh : ∀ l, (surveySettled s1).lane l = s1.lane l := fun _ => rfl
          exact ⟨fun l => rfl, fun l h => q l h (hq l (by intro h; cases h))⟩
        | disturb zone hold => exact ⟨fun l => rfl, fun l h => q l h (hq l (by intro h; cases h))⟩
        | raise _ _ _ _ _ _ _ => exact ⟨fun l => rfl, fun l h => q l h (hq l (by intro h; cases h))⟩
        | clear _ _ _ => exact ⟨fun l => rfl, fun l h => q l h (hq l (by intro h; cases h))⟩
        | status => exact ⟨fun l => rfl, fun l h => q l h (hq l (by intro h; cases h))⟩
      · exact ⟨fun _ => rfl, fun l h => h⟩

theorem withdrawRaise_reports (g : GroupNo) (s : State) : KeepsReports (withdrawRaise g s) s := by
  have base : KeepsReports { s with queue := (markWithdrawn g s.queue).filter fun e => !e.waitingRaise g } s := by
    refine ⟨fun _ => rfl, fun l h => h.imp id fun ⟨x, y⟩ => ⟨x, ?_⟩⟩
    obtain ⟨z, hz, hw⟩ := List.any_eq_true.1 y
    have hzw : z.waiting = true := by simp [Entry.waitsFor] at hw; exact hw.1
    have hzi : z.body.identity = .stock l := by simp [Entry.waitsFor] at hw; exact hw.2
    refine List.any_eq_true.2 ⟨z, List.mem_filter.2 ⟨List.mem_map.2 ⟨z, hz, ?_⟩, ?_⟩, hw⟩
    · simp [hzw]
    · cases hb : z.body <;> simp [Entry.waitingRaise, Body.isRaiseOf, hb]
      rw [hb] at hzi; cases hzi
  unfold withdrawRaise
  dsimp only
  split
  · exact (eachLane_reports laneOffer_reports _).trans base
  · next h =>
    have e : (markWithdrawn g s.queue).filter (fun e => !e.waitingRaise g) = markWithdrawn g s.queue := by
      refine List.filter_eq_self.mpr fun x hx => ?_
      cases hw : x.waitingRaise g with
      | false => rfl
      | true => exact absurd (List.any_eq_true.mpr ⟨x, hx, hw⟩) h
    rw [e] at base; exact base

/-! ## The alerts and the evaluations -/

theorem updateAlert_reports (g : GroupNo) (f : Alert → Alert) (s : State) : KeepsReports (s.updateAlert g f) s :=
  ⟨fun _ => rfl, fun _ h => h⟩

theorem updateRecord_reports (g : GroupNo) (f : GroupRecord → GroupRecord) (s : State) :
    KeepsReports (s.updateRecord g f) s := ⟨fun _ => rfl, fun _ h => h⟩

theorem draw_reports (n : Nat) (s : State) : KeepsReports (s.draw n).2 s := ⟨fun _ => rfl, fun _ h => h⟩

theorem onGroup_reports {g : GroupNo} {event : Group → State → State} (h : ∀ gr s, KeepsReports (event gr s) s) (s : State) :
    KeepsReports (s.onGroup g event) s := by
  unfold State.onGroup; split
  · exact h _ s
  · exact .refl s

theorem enterPending_reports (g : GroupNo) (s : State) : KeepsReports (enterPending g s) s :=
  onGroup_reports (fun _ s => (updateAlert_reports g _ _).trans (draw_reports 64 s)) s

theorem testClear_reports (g : GroupNo) (s : State) : KeepsReports (testClear g s) s := onGroup_reports (fun _ s => by
  split
  · exact enterPending_reports g s
  · exact .refl s) s

theorem raisedReport_reports (g : GroupNo) (gr : Group) (s : State) : KeepsReports (raisedReport g gr s) s := by
  unfold raisedReport
  split
  · exact .refl s
  · split
    · refine (withdrawRaise_reports g _).trans ((updateAlert_reports g _ _).trans ?_)
      split
      · exact onGroup_reports (fun _ s => offer_reports _ s) s
      · exact .refl s
    · split
      · exact (onGroup_reports (fun _ s => offer_reports _ s) _).trans (updateAlert_reports g _ s)
      · exact .refl s

theorem alertReport_reports (g : GroupNo) (s : State) : KeepsReports (alertReport g s) s := onGroup_reports (fun gr s => by
    split
    · exact testClear_reports g s
    · split
      · exact .refl s
      · exact updateAlert_reports g _ s
    · exact raisedReport_reports g gr s
    · exact .refl s
    · split
      · exact .refl s
      · exact updateAlert_reports g _ s
    · exact .refl s) s

theorem suspendAlert_reports (g : GroupNo) (s : State) : KeepsReports (suspendAlert g s) s := onGroup_reports (fun gr s => by
    split
    · exact .refl s
    · exact (withdrawRaise_reports g _).trans (updateAlert_reports g _ s)) s

theorem resumeAlert_reports (g : GroupNo) (s : State) : KeepsReports (resumeAlert g s) s := onGroup_reports (fun gr s => by
    split
    · exact (testClear_reports g _).trans (updateAlert_reports g _ s)
    · exact .refl s) s

theorem suspensionReport_reports (g : GroupNo) (b a : GroupRecord) (s : State) : KeepsReports (suspensionReport g b a s) s := by
  unfold suspensionReport; split
  · exact .refl _
  · split
    · exact suspendAlert_reports g _
    · exact resumeAlert_reports g _

theorem levelReport_reports (g : GroupNo) (b a : GroupRecord) (s : State) : KeepsReports (levelReport g b a s) s := by
  unfold levelReport; split
  · exact .refl _
  · exact alertReport_reports g _

/-- An evaluation keeps every report coming. -/
theorem evaluate_reports (g : GroupNo) (s : State) : KeepsReports (evaluate g s) s :=
  onGroup_reports (fun _ s => (levelReport_reports g _ _ _).trans ((suspensionReport_reports g _ _ _).trans (updateRecord_reports g _ s))) s

theorem groupTakesLane_reports (article : Word) (moves : Bool) (g : GroupNo) (s : State) :
    KeepsReports (groupTakesLane article moves g s) s :=
  onGroup_reports (fun gr s => by
  split
  · refine (evaluate_reports g _).trans ?_
    split
    · exact updateRecord_reports g _ s
    · exact .refl s
  · exact .refl s) s

theorem groupsTakeLane_reports (l : LaneNo) (before : Lane) (s : State) : KeepsReports (groupsTakeLane l before s) s := by
  unfold groupsTakeLane
  dsimp only
  split
  · exact (foldl_relates KeepsReports .refl KeepsReports.trans _ (fun s g => groupTakesLane_reports _ _ g s) _ _).trans
      ⟨fun _ => rfl, fun _ h => h⟩
  · exact .refl s

end Sys2Proof.Machine
end

