-- ==== Sys2Proof/Laws/Steps.lean ====
section
/-! SUPPORT. What a step can do, said once: a relation that the parts of the commands keep is kept by every step. -/

namespace Sys2Proof.Machine

/-- A relation between the state after and the state before that every part of a command keeps. -/
structure StepFrame (R : State → State → Prop) : Prop extends BusFrame R where
  /-- Any change of Station Control that keeps its diagnostic counters. -/
  control : ∀ (f : StationControl → StationControl) (s : State), (∀ st, (f st).counters = st.counters) → R (s.updateStation f) s
  /-- Any change of the lanes' records. -/
  lanes : ∀ (x : Four Lane) (s : State), R { s with lanes := x } s
  /-- New groups, as the load forms them. -/
  groups : ∀ (x : Four (Option Group)) (s : State), R { s with groups := x } s
  /-- A new end of the report timer and a new moment of the rate tick. -/
  timers : ∀ (t u : Option Time) (s : State), R { s with reportTimer := t, rateTick := u } s
  reset : ∀ (cause : ResetCause) (s : State), R (resetPart cause s) s
  time : ∀ (elapsed : Nat) (s : State), R (passTime elapsed s) s
  kept : ∀ s : State, R (keepUp s) s
  report : ∀ (e : PeerEntry) (s : State), R (takeReport e s) s
  aged : ∀ (sender : Nat) (lane : LaneNo) (s : State), R (ageEntry sender lane s) s
  forgotten : ∀ (sender : Nat) (lane : LaneNo) (s : State), R (forgetEntry sender lane s) s
  /-- Any change of the Line Controller that keeps its counts, its state, its second timer and its attempt. -/
  line : ∀ (f : LineController → LineController) (s : State),
    (∀ lc, (f lc).tecCount = lc.tecCount ∧ (f lc).recCount = lc.recCount ∧ (f lc).state = lc.state
      ∧ (f lc).secondTimer = lc.secondTimer ∧ (f lc).attempt = lc.attempt) → R (s.updateLine f) s
  tecUp : ∀ s : State, R (raiseTec s) s
  tecDown : ∀ s : State, R (lowerTec s) s
  recUp : ∀ s : State, R (raiseRec s) s
  recDown : ∀ s : State, R (lowerRec s) s
  second : ∀ (expiry : Time) (s : State), s.line.secondTimer = some expiry → R (secondPasses expiry s) s
  begun : ∀ s : State, R (attemptBegins s) s
  jam : ∀ (a : Attempt) (s : State), s.line.attempt = some a → R (startJam a s) s
  sent : ∀ s : State, s.line.attempt.isSome = true → R (frameIsSent s) s
  jamOver : ∀ (ended : Time) (s : State), s.line.attempt.isSome = true → R (jamEnds ended s) s
  abandoned : ∀ s : State, R (abandonAttempt s) s
  passed : ∀ s : State, R (notBeforeReached s) s
  expired : ∀ s : State, R (removeExpired s) s

/-- A next state is the state that the outcome names. -/
theorem next_injective {a b : State} (h : (Host.Outcome.next a : Host.Outcome State Fault Refusal) = .next b) : a = b := by
  injection h

namespace StepFrame

variable {R : State → State → Prop}

theorem choose (F : StepFrame R) (P : Prop) [Decidable P] {a s : State} (h : R a s) : R (if P then a else s) s := by
  split
  · exact h
  · exact F.refl s

theorem ofChecked (b : Bool) {a s t : State} (h : checked b a = .next t) (k : R a s) : R t s := by
  unfold checked at h
  split at h
  · injection h with h; rw [← h]; exact k
  · cases h

theorem ofTimed (F : StepFrame R) (e : Nat) {f : State → State} (hf : ∀ s, R (f s) s) (s : State) : R (timed e f s) s := by
  unfold timed
  split
  · exact F.refl s
  · exact F.trans (F.kept _) (F.trans (hf _) (F.time e s))

theorem ofLineError (F : StepFrame R) (c : LineError) (s : State) : R (lineError c s) s := by
  unfold lineError
  exact F.trans (F.recUp _) (F.trans (F.counted _ _ _) (F.trans (F.line _ _ fun _ => ⟨rfl, rfl, rfl, rfl, rfl⟩) (F.trans (F.control _ _ fun _ => rfl) (F.line _ _ fun _ => ⟨rfl, rfl, rfl, rfl, rfl⟩))))
theorem ofHeardLow (F : StepFrame R) (level : LineLevel) (lowEnd : Time) (s : State) : R (heardLow level lowEnd s) s := F.line _ _ fun _ => ⟨rfl, rfl, rfl, rfl, rfl⟩
theorem ofHeardFrame (F : StepFrame R) (chars : List Byte) (s : State) : R (heardFrame chars s) s := F.ofHeardLow _ _ s
theorem ofHeardCharacter (F : StepFrame R) (us : Nat) (value : Byte) (s : State) : R (heardCharacter us value s) s :=
  F.ofHeardLow _ _ s
theorem ofWaitIdle (F : StepFrame R) (s : State) : R (waitIdle s) s := F.line _ _ fun _ => ⟨rfl, rfl, rfl, rfl, rfl⟩
theorem ofForeignLow (F : StepFrame R) (level : LineLevel) (lowEnd : Time) (s : State) : R (foreignLow level lowEnd s) s := by
  unfold foreignLow; split
  · exact F.ofHeardLow _ _ _
  · exact F.refl _


theorem ofFilterByKind (F : StepFrame R) (n : Nat) (b : RxBody) (s : State) : R (filterByKind n b s) s := by
  have fo : ∀ s, R (filterOut s) s := fun s => F.counted _ _ s
  have gw : ∀ (f : State → State) s, (∀ s, R (f s) s) → R (fromGateway n f s) s := by
    intro f s hf
    unfold fromGateway; split
    · exact hf s
    · exact F.counted _ _ s
  unfold filterByKind
  split
  · unfold filterStock; split
    · split
      · exact F.report _ _
      · exact fo s
    · exact fo s
  · unfold filterSurvey; split
    · exact F.surveyHeard _ _
    · exact fo s
  · unfold filterDisturb; split
    · exact F.disturbHeard _ _ _
    · exact fo s
  · unfold filterRaise; split
    · split
      · exact F.raiseHeard _ _ _ _
      · exact fo s
    · exact fo s
    · exact fo s
  · unfold filterClear; split
    · split
      · exact F.clearHeard _ _ _
      · exact fo s
    · exact fo s
  · refine gw _ _ (fun s => ?_)
    split
    · split
      · exact F.releaseHeard _ _ _
      · exact F.takeHeard _ _ _ _
    · exact fo s
  · refine gw _ _ (fun s => ?_)
    split
    · exact F.offer _ _
    · exact fo s
  · exact fo s
  · refine gw _ _ (fun s => ?_)
    split
    · exact F.reset _ _
    · exact fo s

theorem ofFrameReceived (F : StepFrame R) (chars : List Byte) (s : State) : R (frameReceived chars s) s := by
  unfold frameReceived
  split
  · split
    · refine F.trans ?_ (F.trans (F.recDown _) (F.trans (F.ofWaitIdle _) (F.ofHeardFrame chars s)))
      unfold filterFrame
      split
      · exact F.counted _ _ _
      · split
        · exact F.counted _ _ _
        · split
          · exact F.latched _ _
          · exact F.ofFilterByKind _ _ _
    · exact F.trans (F.ofLineError _ _) (F.ofHeardFrame chars s)
    · exact F.refl s
  · exact F.refl s

theorem ofConfigFault (F : StepFrame R) (s : State) : R (enterConfigFault s) s := by
  unfold enterConfigFault
  exact F.trans (F.engine _ _) (F.trans (F.lanes _ _) (F.control _ s fun _ => rfl))
theorem ofBeginAttempt (F : StepFrame R) (d) (s : State) : R (beginAttempt d s) s := by
  unfold beginAttempt
  exact F.trans (F.engine _ _) (F.control _ s fun _ => rfl)
theorem ofFailAttempt (F : StepFrame R) (d) (s : State) : R (failAttempt d s) s := by
  unfold failAttempt
  dsimp only
  have : R ((endTransaction s).updateEngine fun e => { e with failedAttempts := e.failedAttempts + 1 }) s := F.trans (F.engine _ _) (F.engine _ _)
  split
  · exact F.trans (F.ofBeginAttempt _ _) this
  · exact F.trans (F.ofConfigFault _) this
theorem ofLoad (F : StepFrame R) (b d) (s : State) : R (loadCompletes b d s) s := by
  unfold loadCompletes
  dsimp only
  refine F.trans (F.takeTick _ _ _) (F.trans (F.eachGroup F.evaluate _) ?_)
  refine F.trans (b := loadStation b (if adjusts b then State.latch .configAdjusted s else s)) ?_ ?_
  · exact F.trans (F.groups _ _) (F.trans (F.shock _ _) (F.trans (F.lanes _ _) (F.engine _ _)))
  · refine F.trans (F.control _ _ fun _ => rfl) ?_
    show R (if adjusts b then State.latch .configAdjusted s else s) s
    split
    · exact F.latched _ _
    · exact F.refl _
theorem ofSegment (F : StepFrame R) (b d) (s : State) : R (segmentEnds b d s) s := by
  unfold segmentEnds
  dsimp only
  have h : R (s.updateStation fun st => { st with block := st.block ++ b }) s := F.control _ s fun _ => rfl
  split_ifs
  · exact F.trans (F.ofFailAttempt _ _) h
  · exact F.trans (F.engine _ _) h
  · unfold readSucceeds; split
    · exact F.trans (F.ofLoad _ _ _) h
    · exact F.trans (F.ofConfigFault _) h
  · exact F.trans (F.ofFailAttempt _ _) h

theorem ofResetEnds (F : StepFrame R) (straps) (s : State) : R (resetEnds straps s) s := by
  unfold resetEnds; dsimp only
  split
  · split
    · exact F.trans (F.control _ _ fun _ => rfl) (F.control _ _ fun _ => rfl)
    · exact F.trans (F.control _ _ fun _ => rfl) (F.trans (F.control _ _ fun _ => rfl) (F.control _ _ fun _ => rfl))
  · exact F.trans (F.ofConfigFault _) (F.control _ _ fun _ => rfl)
theorem ofRestart (F : StepFrame R) (straps) (s : State) : R (restartEnds straps s) s := F.choose _ (F.ofResetEnds straps s)

theorem ofExec (F : StepFrame R) (i : Instr) {s t : State} (h : exec i s = .next t) : R t s := by
  cases i <;> simp only [exec] at h
  case powerOnReset => rw [← next_injective h]; exact F.reset _ _
  case resetInput => rw [← next_injective h]; split; exact F.refl s; exact F.reset _ _
  case resetEnd straps =>
    rw [← next_injective h]; split
    · exact F.ofResetEnds _ s
    · exact F.refl s
  case supplyMonitorLow =>
    rw [← next_injective h]; split
    · exact F.control _ _ fun _ => rfl
    · refine F.ofTimed _ (fun s => ?_) _
      unfold enterBrownOut; dsimp only
      refine F.trans (F.abandoned _) (F.trans (F.engine _ _) ?_)
      unfold dropAttemptBytes; split
      · exact F.trans (F.control _ _ fun _ => rfl) (F.control _ _ fun _ => rfl)
      · exact (F.control _ _ fun _ => rfl)
  case supplyMonitorHigh =>
    rw [← next_injective h]; split
    · exact F.control _ _ fun _ => rfl
    · exact F.ofTimed _ (f := supplyRises) (fun s => by unfold supplyRises; exact F.control _ _ fun _ => rfl) _
  case buttonInputChange el lane high =>
    rw [← next_injective h]; split
    · exact F.service _ _ _
    · refine F.ofTimed _ (fun s => ?_) _
      unfold buttonChanges; split
      · exact F.refl s
      · refine F.trans (b := setButton lane high s) ?_ (F.service lane (fun sv => { sv with buttonInput := high }) s)
        unfold startDebounce; split
        · exact F.refl _
        · split <;> exact F.service _ _ _
  case configSegmentEnd => exact ofChecked _ h (F.ofTimed _ (fun s => F.choose _ (F.ofSegment _ _ _)) _)
  case frameGapTimeout =>
    refine ofChecked _ h (F.ofTimed _ (fun s => ?_) _)
    unfold gapPasses; split
    · exact F.choose _ (F.trans (F.ofLineError _ _) (F.line _ _ fun _ => ⟨rfl, rfl, rfl, rfl, rfl⟩))
    all_goals exact F.refl s
  case stretchTimeout =>
    refine ofChecked _ h (F.ofTimed _ (fun s => ?_) _)
    split
    · unfold holdFails; split
      · refine F.choose _ (F.trans (F.engine _ _) ?_)
        unfold handOver; split
        · exact F.control _ _ fun _ => rfl
        · exact F.refl s
      · refine F.choose _ ?_
        unfold stuckAfterRecovery; split
        · exact F.stuckRound _ _ _
        · exact F.trans (F.ofFailAttempt _ _) (F.latched _ _)
      · exact F.refl s
    · exact F.refl s
  case restart =>
    exact ofChecked _ h (F.ofTimed _ (fun s => F.trans (F.ofRestart _ _) (F.ofFrameReceived _ s)) _)
  case bodyLengthTooLong => exact ofChecked _ h (F.ofTimed _ (fun s => F.choose _ (F.trans (F.ofLineError _ _) (F.ofHeardCharacter _ _ s))) _)
  all_goals first
    | exact ofChecked _ h (F.ofTimed _ (F.ofFrameReceived _) _)
    | (rw [← next_injective h]; refine F.ofTimed _ (fun s => ?_) _)
  case warmUpEnd => exact F.choose _ (F.trans (F.ofBeginAttempt _ _) (F.control _ _ fun _ => rfl))
  case configAcknowledgeMissing => exact F.choose _ (F.ofFailAttempt _ _)
  case roundTick => split; exact F.choose _ (F.takeTick _ _ _); exact F.refl s
  case converterTransactionComplete =>
    split
    · exact F.trans (F.nextChannel _ _ _) (F.recordEnd _ _ _)
    all_goals exact F.refl s
  case stretchStop =>
    split
    · refine F.choose _ ?_
      unfold stretchStops; split
      · exact F.trans (F.nextChannel _ _ _) (F.recordFailure _ _)
      · exact F.ofFailAttempt _ _
    all_goals exact F.refl s
  case busHeld =>
    split
    · refine F.choose _ ?_
      unfold busIsHeld; split
      · exact F.trans (F.stuckRound _ _ _) (F.recordFailure _ _)
      · exact F.ofFailAttempt _ _
    all_goals exact F.refl s
  case busRecoveryComplete =>
    split
    · split
      · exact F.engine _ _
      · unfold stuckAfterRecovery; split
        · exact F.stuckRound _ _ _
        · exact F.trans (F.ofFailAttempt _ _) (F.latched _ _)
    all_goals exact F.refl s
  case brownOutEnd =>
    refine F.choose _ ?_
    unfold brownOutEnds; dsimp only
    have h : R (s.updateStation fun st => { st with brownOut := .none }) s := F.control _ _ fun _ => rfl
    split
    · exact F.trans (F.control _ _ fun _ => rfl) h
    · exact F.trans (F.ofBeginAttempt _ _) h
    · exact F.trans (F.eachLane F.laneBrownOutEnd _) h
    · exact F.trans (F.eachLane F.laneBrownOutEnd _) h
    · exact h
    · exact h
  case lineIdle => exact F.choose _ (F.line _ _ fun _ => ⟨rfl, rfl, rfl, rfl, rfl⟩)
  case lineBusy => exact F.ofForeignLow _ _ _
  case framingFault =>
    unfold framingFaultSeen; split
    · exact F.trans (F.ofLineError _ _) (F.ofHeardLow _ _ _)
    · exact F.trans (F.ofWaitIdle _) (F.ofHeardLow _ _ _)
    · exact F.ofForeignLow _ _ _
    · exact F.refl s
  case lineBreak =>
    unfold breakSeen; split
    · exact F.trans (F.ofWaitIdle _) (F.ofHeardLow _ _ _)
    · exact F.trans (F.ofWaitIdle _) (F.ofHeardLow _ _ _)
    · exact F.ofForeignLow _ _ _
    · exact F.refl s
  case attemptBegin => exact F.begun _
  case frameSent =>
    split
    · next hs => exact F.choose _ (F.sent _ (by rw [hs]; rfl))
    all_goals exact F.refl s
  case collision =>
    split
    · next hs => exact F.choose _ (F.jam _ _ hs)
    all_goals exact F.refl s
  case jamEnd =>
    split
    · next hs => exact F.choose _ (F.jamOver _ _ (by rw [hs]; rfl))
    all_goals exact F.refl s
  case notBeforePassed => exact F.passed _
  case stuckMeasurementExpiry =>
    split
    · exact F.choose _ (F.trans (F.tecUp _) (F.trans (F.latched _ _) (F.line _ _ fun _ => ⟨rfl, rfl, rfl, rfl, rfl⟩)))
    · exact F.refl s
  case listenOnlySecondTimer =>
    split
    · next hx => exact F.choose _ (F.second _ _ hx)
    · exact F.refl s
  case disturbExpiry => exact F.expired _
  case press => exact F.choose _ (F.service _ _ _)
  case release =>
    refine F.choose _ ?_
    unfold releaseTaken; dsimp only
    split
    · exact F.trans (F.shortPress _ _) (F.service _ _ _)
    · exact F.service _ _ _
    · exact F.service _ _ _
  case longPress => exact F.choose _ (F.trans (F.longPressTaken _ _) (F.service _ _ _))
  case refusalFlashEnd => exact F.choose _ (F.service _ _ _)
  case patternOriginAdvance =>
    unfold originAdvances; split
    · exact F.service _ _ _
    · exact F.service _ _ _
    · exact F.service _ _ _
    · exact F.group _ _ _
  case holdTimerExpiry => exact F.choose _ (F.changed _ _ _)
  case reportTimerExpiry =>
    split
    · refine F.choose _ (F.trans (F.eachLane F.laneReport _) ?_)
      exact F.timers _ _ s
    · exact F.refl s
  case surveyDelayEnd => exact F.choose _ (F.trans (F.laneReport _ _) (F.service _ _ _))
  case holdoffExpiry => exact F.choose _ (F.trans (F.allWeighing _ _) (F.shock _ _))
  case sendInhibitExpiry => exact F.choose _ (F.shock _ _)
  case entryAged => exact F.aged _ _ _
  case entryForgotten => exact F.forgotten _ _ _
  case rateTick =>
    split
    · refine F.choose _ (F.trans (F.eachGroup F.groupRateTick _) ?_)
      exact F.timers _ _ s
    · exact F.refl s
  case deferenceExpiry => exact F.onGroup (fun _ s => F.choose _ (F.deferenceExpired _ _ _)) _
  case repeatExpiry => exact F.onGroup (fun _ s => F.choose _ (F.repeatRaise _ _)) _
  case watchExpiry => exact F.onGroup (fun _ s => F.choose _ (F.pendingOrClear _ _)) _
  case takenExpiry => exact F.onGroup (fun _ s => F.choose _ (F.pendingOrClear _ _)) _
  case joinSurveyOffer =>
    split
    · refine F.choose _ ?_
      unfold joinSurvey; dsimp only
      split
      · exact F.trans (F.survey _) (F.control _ _ fun _ => rfl)
      · exact F.trans (F.offerSurvey _ _) (F.control _ _ fun _ => rfl)
    · exact F.refl s
  case joiningEnd =>
    split
    · refine F.choose _ ?_
      unfold joiningEnds; dsimp only
      refine F.trans (F.eachGroup F.testClear _) (F.trans (F.eachLane F.laneReport _) ?_)
      refine F.trans (F.timers _ _ _) (F.control (fun st => { st with phase := .running, joinTimer := none }) s fun _ => rfl)
    · exact F.refl s
  case readyCharacterReceived =>
    unfold readyCharacter; split
    · exact F.trans (F.line _ _ fun _ => ⟨rfl, rfl, rfl, rfl, rfl⟩) (F.ofHeardCharacter _ _ s)
    all_goals exact F.refl s


/-- A step keeps the relation between the state after it and the state before it without the command taken. -/
theorem ofStep (F : StepFrame R) {s t : State} (h : step s = .next t) : R t { s with pending := s.pending.tail } := by
  unfold step at h
  split at h
  · next hp =>
    have e : { s with pending := s.pending.tail } = s := by rw [hp]; cases s; simp_all
    rw [e, ← next_injective h]
    exact F.refl s
  · next c rest hp =>
    have e : { s with pending := s.pending.tail } = { s with pending := rest } := by rw [hp]; rfl
    rw [e]
    exact F.ofExec c h

end StepFrame

end Sys2Proof.Machine
end

