-- ==== Sys2Proof/Tests/Slice0.lean ====
section
/-! SUPPORT. Own tests: the checks of WellFormed, the figures that the manual works out, and for every statement with hypotheses a state
and operands that meet them. -/

namespace Sys2Proof.Tests

open Sys2Proof.Machine

-- One test after the other: many evaluations at once need more threads than the memory limit has room for.
set_option Elab.async false

/-! ## Frames and checks -/

/-- The characters after the mark of a frame. -/
def frame (sender : Nat) (kind : FrameKind) (body : List Byte) : List Byte := (frameChars sender kind body).tail

/-- STOCK of lane 3: article 0x01020304, pack 12, count 40, IN SERVICE and SURE. -/
def stockFrame (sender : Nat) : List Byte := frame sender .stock [3, 1, 2, 3, 4, 12, 0, 40, 0x40]

def surveyFrame : List Byte := frame 60 .survey [1, 1, 2, 3, 0, 0xFF, 0xFF, 0xFF, 0]
def disturbFrame : List Byte := frame 60 .disturb [7, 0]
def raiseFrame (sender : Nat) : List Byte := frame sender .raise [1, 2, 3, 0, 0xFF, 0xFF, 0xFF, 0, 0x80, 0, 0, 9, 0, 20]
def clearFrame : List Byte := frame 60 .clear [1, 2, 3, 0, 0xFF, 0xFF, 0xFF, 0]
def takeFrame (minutes : Byte) : List Byte := frame 61 .take [1, 2, 3, 0, 0xFF, 0xFF, 0xFF, 0, 5, minutes]
def queryFrame : List Byte := frame 63 .query [17]
def restartFrame : List Byte := frame 61 .restart [17]
def statusFrame : List Byte := frame 60 .status (List.replicate 40 0)

/-- The check of R85 over the nine digits, the known value of this check. -/
theorem test_check_word :
    checkWord [0x31, 0x32, 0x33, 0x34, 0x35, 0x36, 0x37, 0x38, 0x39] = 0x29B1#16 := by decide +kernel

theorem test_wf_segment : (Instr.configSegmentEnd 0 (List.replicate 31 0) true).wf = false
    ∧ (Instr.configSegmentEnd 0 (List.replicate 32 0) true).wf = true := by decide
theorem test_wf_stretch : (Instr.stretchTimeout 0 ⟨List.replicate 33 0, true⟩).wf = false
    ∧ (Instr.stretchTimeout 0 ⟨List.replicate 32 0, true⟩).wf = true := by decide
theorem test_wf_gap : (Instr.frameGapTimeout ⟨0, [], 160⟩).wf = false ∧ (Instr.frameGapTimeout ⟨0, [1, 0x21], 161⟩).wf = true
    ∧ (Instr.frameGapTimeout ⟨0, [1], 168⟩).wf = true ∧ (Instr.frameGapTimeout ⟨0, [], 169⟩).wf = false
    ∧ (Instr.frameGapTimeout ⟨0, queryFrame, 161⟩).wf = false ∧ (Instr.frameGapTimeout ⟨0, [1, 0x21, 41], 161⟩).wf = false := by decide +kernel
theorem test_wf_too_long : (Instr.bodyLengthTooLong 0 1 0x21 40).wf = false ∧ (Instr.bodyLengthTooLong 0 1 0x21 41).wf = true := by
  decide
theorem test_wf_rejected : (Instr.frameRejected 0 (stockFrame 1)).wf = false ∧ (Instr.frameRejected 0 [1, 0x21]).wf = false
    ∧ (Instr.frameRejected 0 (frame 1 .stock [])).wf = true := by decide +kernel
theorem test_wf_stock : (Instr.stockReceived 0 disturbFrame).wf = false ∧ (Instr.stockReceived 0 (stockFrame 1)).wf = true := by
  decide +kernel
theorem test_wf_survey : (Instr.surveyReceived 0 (stockFrame 1)).wf = false ∧ (Instr.surveyReceived 0 surveyFrame).wf = true := by
  decide +kernel
theorem test_wf_disturb : (Instr.disturbReceived 0 surveyFrame).wf = false ∧ (Instr.disturbReceived 0 disturbFrame).wf = true := by
  decide +kernel
theorem test_wf_raise : (Instr.raiseReceived 0 clearFrame).wf = false ∧ (Instr.raiseReceived 0 (raiseFrame 1)).wf = true := by
  decide +kernel
theorem test_wf_clear : (Instr.clearReceived 0 (raiseFrame 1)).wf = false ∧ (Instr.clearReceived 0 clearFrame).wf = true := by
  decide +kernel
theorem test_wf_take : (Instr.take 0 (takeFrame 0)).wf = false ∧ (Instr.take 0 (takeFrame 1)).wf = true := by decide +kernel
theorem test_wf_release : (Instr.takeRelease 0 (takeFrame 1)).wf = false ∧ (Instr.takeRelease 0 (takeFrame 0)).wf = true := by
  decide +kernel
theorem test_wf_query : (Instr.query 0 restartFrame).wf = false ∧ (Instr.query 0 queryFrame).wf = true := by decide +kernel
theorem test_wf_restart : (Instr.restart 0 ⟨queryFrame, 17⟩).wf = false ∧ (Instr.restart 0 ⟨restartFrame, 17⟩).wf = true := by
  decide +kernel
theorem test_wf_status : (Instr.statusFrameReceived 0 queryFrame).wf = false ∧ (Instr.statusFrameReceived 0 statusFrame).wf = true := by
  decide +kernel

/-- R88: the first failing test gives the error. -/
theorem test_frame_errors : judge ((stockFrame 1).set 3 0) = .error .check
    ∧ judge ([1, 0x99, 0] ++ checkChars (checkWord [1, 0x99, 0])) = .error .kind
    ∧ judge (frame 1 .stock [0]) = .error .length := by decide +kernel

/-- A block of the version, with right tags and a right check. -/
def blockOf (version : Byte) : List Byte :=
  let body := (List.range 254).map fun i =>
    if i % 32 = 0 then BitVec.ofNat 8 (0xA0 + i / 32) else if i = 1 then version else 0
  body ++ checkChars (checkWord body)

/-- The segments of a block. -/
def segmentsOf (block : List Byte) : List (List Byte) := (List.range 8).map fun i => (block.drop (32 * i)).take 32

/-- R3, R4: a converter transaction has 63 clock periods, two STARTs and one STOP, and its data line changes nowhere else while the clock
line is high; without an acknowledge of its address byte a STOP follows at once. -/
theorem test_converter_course :
    let course := converterCourse 0x2A 0 0x80 1 2 3
    (course.map BusAct.periods).sum = 63 ∧ edges isStart (courseLevels course) = 2 ∧ edges isStop (courseLevels course) = 1
      ∧ edges isHighChange (courseLevels course) = 3 ∧ (courseLevels course).getLast? = some ⟨true, true⟩
      ∧ endedEarly 0 course = [.start, .send 0x54 false, .stop true] := by decide +kernel

/-- R15, R16: the clock periods of a configuration read, and of one that ends at a wrong tag in segment 2. -/
theorem test_config_course : ((configCourse (segmentsOf (blockOf 1))).map BusAct.periods).sum = 2340
    ∧ ((configCourse (segmentsOf ((blockOf 1).set 64 0))).map BusAct.periods).sum = 900
    ∧ edges isStop (courseLevels (configCourse (segmentsOf ((blockOf 1).set 64 0)))) = 1 := by decide +kernel

/-- R2, R5: a recovery and the wait after a STRETCH failure each end in one STOP. A partner may release the data line part-way through the
pulses, or still hold it low after the STOP. -/
theorem test_recovery_course :
    let freed := List.replicate 4 false
    let stuck := List.replicate 10 false
    edges isStop (courseLevels (recoveryCourse freed)) = 1 ∧ (courseLevels (recoveryCourse freed)).getLast? = some ⟨true, true⟩
      ∧ ((recoveryCourse freed).map BusAct.periods).sum = 9
      ∧ edges isStop (courseLevels (recoveryCourse stuck)) = 0 ∧ (courseLevels (recoveryCourse stuck)).getLast? = some ⟨true, false⟩
      ∧ edges isStop (courseLevels (stretchCourse [])) = 1 ∧ edges isStart (courseLevels (stretchCourse [])) = 0
      ∧ edges isHighChange (courseLevels (stretchCourse [])) = 1 := by decide

/-! ## Worked figures -/

/-- The lane of the worked figures (3, "Worked figures: the edge cases"). -/
def sacks : LaneSettings :=
  { LaneSettings.none with
    enabled := true, channels := [4, 5], article := 0x01020304, mask := 0xFFFFFF00, pack := 12, unitWeight := 25000, tolerance := 150
    band := 200, capacityKg := 1500, tare := 18400, zeroLimit := 2000, shockKg := 60, reorderPoint := 20, emptyPoint := 4
    hysteresis := 5, leadTimeMin := 45 }

/-- A count record that is SURE. -/
def sure (count : Nat) (offset : Int) : Counter := ⟨count, .sure, offset, false, false, false⟩

theorem test_overload : (settlement sacks (sure 31 0) 1540000 false).counter = ⟨31, .doubtful, 0, true, false, false⟩
    ∧ (settlement sacks (sure 31 0) 790000 true).counter = ⟨31, .doubtful, 0, true, false, false⟩ := by decide
theorem test_underload : settlement sacks (sure 12 0) 18150 false = ⟨⟨0, .doubtful, 0, false, true, false⟩, -12, false⟩ := by decide
theorem test_zero_tracking : settlement sacks (sure 0 0) 18200 false = ⟨sure 0 (-200), 0, false⟩
    ∧ settlement sacks (sure 0 1950) 20470 false = ⟨⟨0, .doubtful, 1950, false, false, true⟩, 0, true⟩ := by decide
theorem test_count_clamp :
    settlement { sacks with unitWeight := 1, capacityKg := 100 } (sure 0 0) 88400 false
      = ⟨⟨65535, .doubtful, 0, false, false, false⟩, 65535, false⟩
    ∧ settlement { sacks with unitWeight := 300 } (sure 1 0) 18220 false = ⟨sure 0 0, -1, false⟩ := by decide
theorem test_shock : isShock 60 (some 870281) 870279 = false ∧ isShock 60 (some 870279) 938500 = true
    ∧ isShock 60 (some 938500) 871004 = true ∧ isShock 60 (some 871004) 870610 = false := by decide

/-- A group record with level `level` and the figures of 9, "Worked figures: levels of one group". -/
def grain (level : Level) : GroupRecord :=
  { GroupRecord.new 0 sacks with reorderPoint := 1500, emptyPoint := 250, hysteresis := 300, rate := 373, level := level }

theorem test_levels : levelOf (grain .low) 240 .sure = .empty ∧ levelOf (grain .ok) 1290 .sure = .low
    ∧ levelOf (grain .ok) 1400 .sure = .low ∧ levelOf (grain .low) 1700 .sure = .low ∧ levelOf (grain .ok) 1700 .sure = .ok
    ∧ levelOf (grain .low) 1800 .sure = .ok ∧ levelOf (grain .ok) 2106 .sure = .ok
    ∧ levelOf { grain .ok with rate := 660 } 2106 .sure = .low := by decide

/-! ## Small states -/

/-- Station settings inside their ranges. -/
def settings : StationSettings := ⟨0, false, 4, 8, 60, 10, 6, 2, 30, Four.all true⟩

/-- The clock value of the small states. -/
def noon : Time := ⟨100000, 0⟩

/-- A time `n` milliseconds before noon. -/
def ago (n : Nat) : Time := ⟨100000 - BitVec.ofNat 32 n, 0⟩

/-- Station 17 in RUNNING with four lanes IN SERVICE on channels 4 and 5. -/
def running : State :=
  { State.reset with
    station := { State.reset.station with phase := .running, clock := noon, number := 17, config := some ⟨settings, Four.all sacks⟩ }
    engine := { Engine.reset with
      channels := Eight.of fun c => if c.val = 4 ∨ c.val = 5 then { Channel.reset with state := .ok } else Channel.reset
      roundTimer := some noon }
    lanes := Four.all { Lane.reset false with
      weighing := { Weighing.reset with channels := [4, 5], motion := .settled 20400 }
      counter := sure 3 0
      service := { Service.reset false with state := .inService } }
    reportTimer := some noon
    rateTick := some noon }

/-- The running station with its first group's records. -/
def withGroup (r : GroupRecord) (a : Alert) : State := { running with groups := ⟨some ⟨r, a⟩, none, none, none⟩ }

/-- The record of the group, with its condition. -/
def shelf (condition : Bool) : GroupRecord :=
  { GroupRecord.new 0 sacks with level := if condition then .low else .ok, quality := .sure, condition := condition }

/-- A CLEAR alert record. -/
def quiet : Alert := Alert.new noon

/-- The alert record in another state, with every timer at noon. -/
def alertIn (state : AlertState) : Alert :=
  { quiet with state := state, deference := some noon, repeatTimer := some noon, watch := some noon, takenUntil := some noon
               raiser := some 60, terminal := 5 }

/-- A state's Line Controller replaced. -/
def onLine (lc : LineController) (s : State) : State := { s with line := lc }

/-- A receiver in the middle of a frame. -/
def hearing : LineController := { LineController.reset with receiver := .inFrame [0xC5] (ago 1) }

/-- An attempt on the line that ends at noon. -/
def attempting (stage : AttemptStage) : LineController :=
  { LineController.reset with attempt := some ⟨stage, [0xC5], ago 1, noon⟩, receiver := .readback, use := .busyOwn }

/-- A state's sensor-bus transaction replaced. -/
def onBus (t : Transaction) (s : State) : State := s.updateEngine fun e => { e with transaction := some t }

/-- The channel numbered 4 or 5 has the transaction at a stage. -/
def serving (c : ChannelNo) (stage : BusStage) : State := onBus ⟨.channel c, stage⟩ running

/-- A station in LOADING that reads a block. -/
def reading (block : List Byte) (stage : BusStage) : State :=
  onBus ⟨.configRead, stage⟩
    { State.reset with station := { State.reset.station with phase := .loading, number := 17, clock := noon, block := block } }

/-- Lane 0's service record replaced. -/
def serviced (f : Service → Service) : State := running.updateService 0 f

/-- A queue entry. -/
def entry (b : Body) (status : EntryStatus) (attempts : Nat) : Entry :=
  { Entry.new b (ago 10) with status := status, attempts := attempts }

/-- A STOCK body of a lane. -/
def stockIn (l : LaneNo) : Body := .stock l 0x01020304 12 3 .inService .sure

/-- A RAISE body of a group. -/
def raiseIn (g : GroupNo) : Body := .raise g 0x01020300 0xFFFFFF00 (some .low) .sure 9 20

/-- The STOCK body of lane 0. -/
def stockOf : Body := stockIn 0

/-- The RAISE body of group 0. -/
def raiseOf : Body := raiseIn 0

/-- An entry of the Peer Stock Table. -/
def peer (i : Nat) (age : AgeState) : PeerEntry :=
  ⟨20 + i / 4, Fin.ofNat 4 i, 0x01020304, 12, 1, .inService, .sure, ago 700000, age⟩

/-- A full table. -/
def fullTable (age : AgeState) : List PeerEntry := (List.range 48).map fun i => peer i age

/-- A good frame arrives at a running station that hears one. -/
theorem arrives {s : State} {sender : Nat} {body : RxBody} {chars : List Byte} (hs : s.station = running.station)
    (hl : s.line = hearing) (hj : judge chars = .good sender body) (h0 : sender ≠ 0) (hn : sender ≠ 17) :
    Arrives sender body chars s := by
  have hnum : s.number = 17 := by simp only [State.number, hs]; rfl
  refine ⟨?_, ⟨_, _, by rw [hl]; rfl⟩, hj, by rw [hs]; decide, h0, by rw [hnum]; exact hn, ?_⟩
  · unfold Awake
    rw [hs]
    decide
  · unfold LineCountsSound
    rw [hl]
    decide

/-! ## Hypotheses that hold somewhere -/

theorem test_awake : Awake running := by unfold Awake; decide

theorem test_witness_answers : State.reset.pending = [] := rfl

theorem test_witness_resets : State.reset.station.phase = .reset
    ∧ Arrives 61 (.restart (onLine hearing running).number) restartFrame (onLine hearing running)
    ∧ Arrives 63 (.restart (onLine hearing running).number) (frame 63 .restart [17]) (onLine hearing running) :=
  ⟨rfl, arrives rfl rfl (by decide +kernel) (by decide) (by decide), arrives rfl rfl (by decide +kernel) (by decide) (by decide)⟩

/-- R169, R178: a RESTART that is taken ends in WARM-UP with the number of the straps, or without a valid one in CONFIG FAULT. -/
theorem test_restart_phases :
    (restartEnds 17 (frameReceived restartFrame (onLine hearing running))).station.phase = .warmUp
      ∧ (restartEnds 61 (frameReceived restartFrame (onLine hearing running))).station.phase = .configFault
      ∧ (restartEnds 17 (frameReceived (frame 61 .restart [18]) (onLine hearing running))).station.phase = .running := by
  decide +kernel

theorem test_witness_reset_end : State.reset.station.phase = .reset ∧ State.reset.station.supplyGood = true
    ∧ (1 ≤ (1#6).toNat ∧ (60#6).toNat ≤ 60) ∧ ((0#6).toNat = 0 ∧ 61 ≤ (61#6).toNat) := by decide

theorem test_witness_warm_up : (reading [] (.underWay noon)).station.phase ≠ .reset
    ∧ due (some noon) (at' 0 (reading [] (.underWay noon))) = true := by decide

theorem test_witness_segment : (reading [] (.underWay noon)).engine.reading = true
    ∧ (reading [] (.underWay noon)).station.block.length = 32 * 0
    ∧ (reading (List.replicate 192 0) (.underWay noon)).station.block.length = 32 * 6
    ∧ ((blockOf 1).take 32).length = 32 ∧ ((blockOf 1).take 32).head? = some (BitVec.ofNat 8 (0xA0 + 0))
    ∧ (((blockOf 1).drop 192).take 32).head? = some (BitVec.ofNat 8 (0xA0 + 6)) := by decide +kernel

/-- The ways an attempt fails: a wrong tag, a missing acknowledge before any byte, a STOP and a held bus at the 2 ms limit, and a stuck
recovery. -/
theorem test_witness_attempt_fails : (List.replicate 32 (0 : Byte)).head? ≠ some (BitVec.ofNat 8 (0xA0 + 0))
    ∧ (reading [] (.underWay noon)).engine.reading = true ∧ (reading [] (.underWay noon)).station.block = []
    ∧ (reading [] (.stretched (ago 2))).engine.transaction = some ⟨.configRead, .stretched (ago 2)⟩
    ∧ (at' 0 (reading [] (.stretched (ago 2)))).notAfter ((ago 2).addMs 2) = true
    ∧ ((ago 2).addMs 2).notAfter (at' 0 (reading [] (.stretched (ago 2)))) = true
    ∧ (reading [] (.recovering (ago 2))).engine.transaction = some ⟨.configRead, .recovering (ago 2)⟩
    ∧ ((ago 2).addMs 2).notAfter (at' 0 (reading [] (.recovering (ago 2)))) = true
    ∧ (reading [] (.underWay noon)).engine.failedAttempts + 1 < 3 := by decide

/-- The third failed attempt ends in CONFIG FAULT, and the first begins another. -/
theorem test_third_attempt :
    (failAttempt true (reading [] (.underWay noon))).station.phase = .loading
      ∧ (failAttempt true ((reading [] (.underWay noon)).updateEngine fun e => { e with failedAttempts := 2 })).station.phase
        = .configFault := by decide

set_option maxRecDepth 100000 in
/-- A block of zeros is adjusted, and so are the fields it holds below their ranges. -/
theorem test_adjusted : adjusts (blockOf 1) = true ∧ Illegal 1 255 (readLane (blockOf 1) 0).pack
    ∧ ¬ Illegal 0 127 (readChannel (blockOf 1) 0).address := by
  unfold Illegal; decide +kernel

set_option maxRecDepth 100000 in
/-- The last segment of a block of version 1, of one of another version, and of one that fails its check. -/
theorem test_witness_last_segment : ((blockOf 1).take 224).length = 224 ∧ ((blockOf 1).drop 224).length = 32
    ∧ ((blockOf 1).drop 224).head? = some 0xA7#8
    ∧ (blockOf 1).drop 254 = checkChars (checkWord ((blockOf 1).take 254)) ∧ field8 (blockOf 1) 0 1 = 1
    ∧ (blockOf 2).drop 254 = checkChars (checkWord ((blockOf 2).take 254)) ∧ field8 (blockOf 2) 0 1 ≠ 1
    ∧ ((blockOf 1).set 255 0).drop 254 ≠ checkChars (checkWord (((blockOf 1).set 255 0).take 254)) := by decide +kernel

/-- A block with bytes set before its check is formed. -/
def blockWith (set : List (Nat × Byte)) : List Byte :=
  let body := set.foldl (fun b p => b.set p.1 p.2) ((blockOf 1).take 254)
  body ++ checkChars (checkWord body)

/-- A block whose lanes 0, 1 and 3 weigh with channels 0, 1 and 3: lane 1 has the article of lane 0 under its mask, lane 3 another. -/
def stocked : List Byte :=
  blockWith [(33, 8), (40, 9), (54, 11), (97, 0x80), (99, 1), (102, 0xFF), (103, 0xFF), (129, 0x90), (131, 1), (134, 0xFF), (135, 0xFF),
    (193, 0xB0), (195, 2), (198, 0xFF), (199, 0xFF)]

set_option maxRecDepth 100000 in
/-- The lanes that start, and those that form a group with its number; nothing is known of the peers, and there may be a brown-out. -/
theorem test_witness_forms :
    stocked.drop 254 = checkChars (checkWord (stocked.take 254)) ∧ field8 stocked 0 1 = 1 ∧ (stocked.drop 224).head? = some 0xA7#8
      ∧ (allLanes.map fun l => ((configurationFrom stocked).lanes.get l).starts) = [true, true, false, true]
      ∧ (allLanes.filter fun l => decide ((configurationFrom stocked).formsGroup l)) = [0, 3]
      ∧ (allLanes.filter fun m => decide (m < 3 ∧ (configurationFrom stocked).formsGroup m)).length = 1
      ∧ formingLanes (configurationFrom stocked).lanes.get [0, 1, 3] [] = [0, 3]
      ∧ (allChannels.filter fun c => decide (loadedAddress stocked c ≠ 0)) = [0, 1, 3]
      ∧ (∀ c, loadedAddress (blockOf 1) c = 0)
      ∧ (reading [] (.underWay noon)).peers = [] ∧ (reading [] (.underWay noon)).inBrownOut = false := by decide +kernel

theorem test_witness_round_tick : running.engine.roundTimer = some noon ∧ noon.notAfter (at' 0 running) = true
    ∧ running.inBrownOut = false ∧ running.engine.roundRunning = false ∧ running.channelsFrom 0 = [4, 5]
    ∧ (serving 4 (.underWay noon)).engine.roundRunning = true
    ∧ (running.updateStation fun st => { st with brownOut := .low }).inBrownOut = true := by decide

theorem test_witness_channel_health : ({ Channel.reset with state := .suspect, failureRun := 1 } : Channel).failureRun = 1
    ∧ ({ Channel.reset with state := .suspect, failureRun := 2 } : Channel).failureRun = 2
    ∧ ({ Channel.reset with state := .faulted, goodRun := 2 } : Channel).goodRun ≤ 2
    ∧ ({ Channel.reset with state := .faulted, goodRun := 3 } : Channel).goodRun = 3 := by decide

theorem test_witness_transaction_end : (serving 4 (.underWay noon)).channelsFrom ((4 : ChannelNo).val + 1) = 5 :: []
    ∧ (serving 4 (.underWay noon)).engine.transaction = some ⟨.channel 4, .underWay noon⟩
    ∧ (0x80#8).getLsbD 7 = true ∧ (0x7F#8).getLsbD 7 = false
    ∧ (serving 4 (.stretched (ago 2))).channelsFrom ((4 : ChannelNo).val + 1) = 5 :: []
    ∧ (serving 4 (.stretched (ago 2))).engine.transaction = some ⟨.channel 4, .stretched (ago 2)⟩
    ∧ (at' 0 (serving 4 (.stretched (ago 2)))).notAfter ((ago 2).addMs 2) = true := by decide

/-- A third failure makes a channel FAULTED and a fourth good sample makes it OK: what lanes with that channel, and without it, report. -/
theorem test_witness_lane_faults :
    let failing : Channel := { Channel.reset with state := .suspect, failureRun := 2 }
    let healing : Channel := { Channel.reset with state := .faulted, goodRun := 3 }
    let sick := (serving 4 (.underWay noon)).updateEngine fun e => { e with channels := e.channels.set 4 healing }
    failing.state ≠ .faulted ∧ failing.fail.state = .faulted ∧ healing.state = .faulted ∧ (healing.good ⟨1, false⟩).state = .ok
      ∧ 4 ∈ (running.lane 0).weighing.channels ∧ 4 ∉ (State.reset.lane 0).weighing.channels
      ∧ (running.lane 0).service.state ≠ .off ∧ (running.lane 0).service.state ≠ .fault
      ∧ (∀ d ∈ [(4 : ChannelNo), 5], ((sick.engine.channels.set 4 (healing.good ⟨1, false⟩)).get d).state = .ok)
      ∧ ((serviced fun sv => { sv with state := .fault }).lane 0).service.state = .fault := by decide

/-- Station 17 in its last transaction, with the samples of both channels, and lane records changed by `f`. -/
def lastOf (raw : Int) (pending : Bool) (f : Weighing → Weighing) : State :=
  let fed : Channel := { Channel.reset with state := .ok, gain := 65535, latest := some ⟨raw, false⟩, result := .good }
  { serving 5 (.underWay noon) with
    engine := { (serving 5 (.underWay noon)).engine with
      pendingRound := pending
      channels := Eight.of fun c => if c.val = 4 then fed else if c.val = 5 then { fed with result := .none } else Channel.reset }
    lanes := running.lanes.map fun lane => { lane with weighing := f lane.weighing } }

theorem test_witness_round_end (pending : Bool) (raw : Int) (f : Weighing → Weighing) :
    let s := lastOf raw pending f
    s.engine.transaction = some ⟨.channel 5, .underWay noon⟩ ∧ s.channelsFrom ((5 : ChannelNo).val + 1) = []
      ∧ s.configured 5 = true ∧ s.engine.pendingRound = pending ∧ s.channelsFrom 0 = 4 :: [5] :=
  ⟨rfl, rfl, rfl, rfl, rfl⟩

/-- The second channel's good sample of 1000. -/
def thousand : ConverterEnd := .bytesRead 0x80 0 3 0xE8

/-- The source waits for its first good sample or has had it, and a transaction's end is a failure or not. -/
theorem test_witness_seed : running.station.seed.sample = none
    ∧ (running.updateStation fun st => { st with seed := ⟨17, some 5⟩ }).station.seed.sample ≠ none
    ∧ EndsInFailure .notAcknowledged ∧ ¬ EndsInFailure thousand
    ∧ (recordGood 4 ⟨1000, false⟩ running).station.seed = running.station.seedAfter thousand := by
  refine ⟨rfl, by decide, Or.inl rfl, ?_, by decide +kernel⟩
  rintro (h | ⟨_, _, _, _, h, g⟩) <;> cases h
  exact absurd g (by decide)

/-- The channel records with that sample. -/
def ended (s : State) : Eight Channel := s.engine.channels.set 5 ((s.engine.channels.get 5).ended thousand)

/-- A round after which the four lanes settle on the mean of their windows. -/
def quietRound : State :=
  lastOf 1000 false fun w =>
    { w with motion := .moving, filter := [⟨2000, false⟩, ⟨2000, false⟩, ⟨2000, false⟩]
             window := List.replicate 7 2000, previousGross := some 2000 }

/-- A quiet round, with settlements that are taken up. -/
theorem test_witness_quiet_round :
    (∀ l g, ¬ quietRound.shockIn (ended quietRound) noon l g)
      ∧ (quietRound.taken (ended quietRound) noon 0).isSome = true ∧ CountersBounded quietRound := by
  refine ⟨fun l g h => ?_, by decide +kernel, by unfold CountersBounded; decide⟩
  have all : ∀ l : LaneNo, ∀ g ∈ grossSample (ended quietRound) (quietRound.found (ended quietRound) noon l),
      isShock (quietRound.laneSettings l).shockKg (quietRound.found (ended quietRound) noon l).weighing.previousGross g.grams
        = false := by decide +kernel
  exact absurd h.2 (by rw [all l g h.1]; decide)

/-- A round with a shock, before a holdoff and in one with its inhibit. -/
def shockRound (shock : ShockMonitor) : State :=
  { lastOf 900000 false fun w => { w with motion := .moving, previousGross := some 2000 } with shock := shock }

theorem test_witness_shock_round :
    let free := shockRound ShockMonitor.reset
    let held (ends : Time) := shockRound { ShockMonitor.reset with holdoff := some ends, sendInhibit := some ends }
    (grossSample (ended free) (free.found (ended free) noon 0)).isSome = true
      ∧ (∀ g ∈ grossSample (ended free) (free.found (ended free) noon 0),
        isShock (free.laneSettings 0).shockKg (free.found (ended free) noon 0).weighing.previousGross g.grams = true)
      ∧ free.shock.sendInhibit = none ∧ QueueSound free
      ∧ due (held noon).shock.sendInhibit noon = true ∧ due (held (noon.addMs 1)).shock.sendInhibit noon = false
      ∧ HoldoffMoving free ∧ HoldoffMoving (held noon) := by
  refine ⟨by decide +kernel, by decide +kernel, rfl, by unfold QueueSound; decide, by decide, by decide, ?_, ?_⟩
  · unfold HoldoffMoving; decide +kernel
  · unfold HoldoffMoving; decide +kernel

/-- A round can end at the STOP or the held bus after a STRETCH failure of its last channel, and a third failure puts its lanes in FAULT. -/
theorem test_witness_failed_round_end :
    let s := serving 5 (.stretched (ago 2))
    let failing : Channel := { Channel.reset with state := .suspect, failureRun := 2 }
    let sick := s.updateEngine fun e => { e with channels := e.channels.set 5 failing }
    s.engine.transaction = some ⟨.channel 5, .stretched (ago 2)⟩ ∧ s.channelsFrom ((5 : ChannelNo).val + 1) = []
      ∧ s.configured 5 = true ∧ (at' 0 s).notAfter ((ago 2).addMs 2) = true ∧ ((ago 2).addMs 2).notAfter (at' 0 s) = true
      ∧ (sick.lane 0).faultsBy sick.engine.channels (sick.engine.channels.set 5 failing.fail) := by decide

theorem test_witness_holds : (serving 4 (.underWay (ago 2))).engine.transaction = some ⟨.channel 4, .underWay (ago 2)⟩
    ∧ ((ago 2).addMs 2).notAfter (at' 0 (serving 4 (.underWay (ago 2)))) = true
    ∧ (reading [] (.underWay (ago 2))).engine.transaction = some ⟨.configRead, .underWay (ago 2)⟩
    ∧ (reading [] (.recovering noon)).engine.transaction = some ⟨.configRead, .recovering noon⟩ := by decide

/-- A hold cannot fail before 2 ms. -/
theorem test_hold_too_early :
    exec (.stretchTimeout 1999 ⟨[], true⟩) (serving 4 (.underWay noon)) = .next (keepUp (passTime 1999 (serving 4 (.underWay noon)))) := by
  rfl

theorem test_witness_stuck_bus : (serving 4 (.recovering (ago 2))).configured 4 = true
    ∧ (serving 4 (.recovering (ago 2))).engine.pendingRound = false
    ∧ (lastOf 0 true id).engine.pendingRound = true ∧ (lastOf 0 true id).channelsFrom 0 = 4 :: [5]
    ∧ (serving 4 (.recovering (ago 2))).engine.transaction = some ⟨.channel 4, .recovering (ago 2)⟩
    ∧ ((ago 2).addMs 2).notAfter (at' 0 (serving 4 (.recovering (ago 2)))) = true
    ∧ (serving 4 (.stretched (ago 2))).engine.transaction = some ⟨.channel 4, .stretched (ago 2)⟩
    ∧ ((ago 2).addMs 2).notAfter (at' 0 (serving 4 (.stretched (ago 2)))) = true := by decide

theorem test_witness_supply_low : (onLine (attempting .sending) running).line.attempt = some ⟨.sending, [0xC5], ago 1, noon⟩
    ∧ (onLine (attempting .jamming) running).line.attempt = some ⟨.jamming, [0xC5], ago 1, noon⟩ := by
  decide

theorem test_witness_brown_out_end : (running.updateStation fun st => { st with brownOut := .low }).station.brownOut = .low
    ∧ (running.updateStation fun st => { st with brownOut := .high noon }).station.brownOut = .high noon
    ∧ noon.notAfter (at' 0 running) = true ∧ (running.lane 0).service.state = .inService
    ∧ ((serviced fun sv => { sv with state := .held }).lane 0).service.state = .held
    ∧ ((serviced fun sv => { sv with state := .fault }).lane 0).service.state = .fault ∧ running.station.phase = .running := by decide

theorem test_witness_receiver : running.line.attempt = none ∧ running.line.use = .busyOther ∧ running.line.receiver = .waitIdle
    ∧ (onLine { LineController.reset with receiver := .ready } running).line.receiver = .ready
    ∧ (onLine hearing running).line.receiver = .inFrame [0xC5] (ago 1) ∧ (onLine hearing running).line.attempt = none := by decide

/-- R81, R82: after a reset the line becomes idle 192 µs after the reset's end, and no earlier. -/
theorem test_witness_idle : IdleComes State.reset.line.lowEnd ⟨0, 192⟩ ∧ ¬ IdleComes State.reset.line.lowEnd ⟨0, 191⟩ := by
  unfold IdleComes; decide

/-- A line that was LOW until noon is busy 191 µs later and idle 192 µs later. -/
theorem test_idle_time :
    let s := onLine { hearing with use := .busyOther, lowEnd := noon } running
    exec (.lineIdle 191) s = .next (keepUp (passTime 191 s))
      ∧ exec (.lineIdle 192) s
        = .next (keepUp { passTime 192 s with line := { s.line with use := .idle (noon.addUs 192), level := .high } }) := by
  exact ⟨rfl, rfl⟩

theorem test_witness_busy_line : running.inBrownOut = false
    ∧ ({ running with queue := [entry stockOf .waiting 0] } : State).queue.any Entry.waiting = true
    ∧ running.queue.any Entry.waiting = false := by decide

theorem test_witness_line_error : (onLine hearing running).line.receiver = .inFrame [0xC5] (ago 1) ∧ 40 < (41#8).toNat
    ∧ judge (frame 1 .stock [0]) = .error .length
    ∧ isBeginning [] = true ∧ isBeginning [1, 0x21, 40] = true ∧ isBeginning [0xFF] = true
    ∧ ((ago 1).addUs (80 * 3 + 168)).notAfter (at' 0 running) = true ∧ ((ago 1).addUs (80 * 0 + 161)).notAfter (at' 0 running) = true := by
  decide +kernel

/-- One error short of LISTEN-ONLY, with a RAISED group. -/
theorem test_witness_last_error : (onLine { hearing with recCount := 127 } (withGroup (shelf true) (alertIn .raised))).line.state = .active
    ∧ 127 ≤ (onLine { hearing with recCount := 127 } running).line.recCount := by decide

/-- After the mark alone a gap leaves the line busy; after a last character of ones its HIGH bits make it idle. -/
theorem test_witness_gap : ¬ IdleComes ((at' 0 running).subUs (161 + 8 + highTail (([] : List Byte).getLast?.getD 0xC5#8) * 8)) (at' 0 running)
    ∧ IdleComes ((at' 0 running).subUs (161 + 8 + highTail ([0xFF].getLast?.getD 0xC5#8) * 8)) (at' 0 running) := by
  unfold IdleComes; decide

theorem test_witness_good_frame : judge statusFrame = .good 60 .status ∧ judge (stockFrame 0) = .good 0 (.stock 3 0x01020304 12 40 2 0)
    ∧ judge (stockFrame 17) = .good 17 (.stock 3 0x01020304 12 40 2 0) ∧ validNumber running.station.number = true
    ∧ validNumber 0#6 = false ∧ validNumber 61#6 = false
    ∧ judge restartFrame = .good 61 (.restart 17) ∧ judge (frame 60 .restart [17]) = .good 60 (.restart 17)
    ∧ judge (frame 61 .restart [18]) = .good 61 (.restart 18) := by decide +kernel

/-- A station kind that names no own article, a gateway kind from a station, and one for another number. -/
theorem test_witness_not_kept :
    let s := onLine hearing running
    ¬ GatewayKind (.stock 3 0x01020304 12 40 2 0) ∧ ¬ StationKept 60 (.stock 3 0x01020304 12 40 2 0) s
      ∧ ¬ StationKept 61 .status s ∧ GatewayKind (.query 17) ∧ (60 < 61 ∧ 63 < 64) ∧ GatewayKept (.query 17) s
      ∧ ¬ GatewayKept (.query 18) s := by
  refine ⟨id, ?_, ?_, trivial, by decide, rfl, by show ¬ 18 = 17; decide⟩
  · rintro ⟨_, _, _, _, _, _, g, gr, hg, _⟩
    have none_at : ∀ g, (onLine hearing running).group g = none := by decide
    rw [none_at g] at hg
    cases hg
  · rintro ⟨_, h, _⟩; omega

theorem test_witness_stock (age : AgeState) :
    let s := { onLine hearing (withGroup (shelf true) quiet) with peers := fullTable age }
    Arrives 1 (.stock (3 : LaneNo).val 0x01020304 12 40 2 0) (stockFrame 1) s
      ∧ Arrives 60 (.stock (3 : LaneNo).val 0x01020304 12 40 2 0) (stockFrame 60) s ∧ s.holdsArticle 0x01020304 = true
      ∧ stockState 2 = some .inService ∧ confidenceOf 0 = some .sure ∧ findPeer 1 3 s.peers = none ∧ 48 ≤ s.peers.length :=
  ⟨arrives rfl rfl (by decide +kernel) (by decide) (by decide), arrives rfl rfl (by decide +kernel) (by decide) (by decide),
    by cases age <;> decide +kernel, rfl, rfl, by cases age <;> decide +kernel, by cases age <;> decide +kernel⟩

theorem test_witness_stock_places : oldestStale (fullTable .stale) = some (peer 0 .stale) ∧ oldestStale (fullTable .fresh) = none
    ∧ findPeer 31 3 (fullTable .fresh) = some (peer 47 .fresh) ∧ findPeer 31 3 ((fullTable .fresh).take 47) = none
    ∧ ((fullTable .fresh).take 47).length < 48 := by decide +kernel

/-- In a sound full table the first of equal arrivals is the oldest, and an older one before it. -/
theorem test_witness_oldest :
    let older : PeerEntry := { peer 47 .stale with arrival := ago 700001 }
    let oldest (old : PeerEntry) (q : List PeerEntry) : Bool := q.all fun x => decide
      (x.arrival.notAfter old.arrival = false ∧ old.arrival.notAfter x.arrival = true
        ∨ x.arrival = old.arrival ∧ old.sender * 4 + old.lane.val ≤ x.sender * 4 + x.lane.val)
    PeersSound { running with peers := fullTable .stale } ∧ oldest (peer 0 .stale) (fullTable .stale) = true
      ∧ peer 0 .stale ∈ fullTable .stale ∧ older ∈ (fullTable .stale).set 47 older
      ∧ oldest older ((fullTable .stale).set 47 older) = true ∧ (∀ x ∈ fullTable .fresh, x.age = .fresh) := by
  refine ⟨by unfold PeersSound; decide +kernel, ?_⟩
  decide +kernel

/-- A report may leave the entry of its key as it is but for the arrival time, or change it; a group may hold the article of an entry or not. -/
theorem test_witness_overwrite :
    let entry : PeerEntry := ⟨31, 3, 0x01020304, 12, 40, .inService, .sure, noon, .fresh⟩
    peer 47 .fresh ≠ { entry with arrival := (peer 47 .fresh).arrival }
      ∧ { entry with arrival := ago 1 } = { entry with arrival := ({ entry with arrival := ago 1 } : PeerEntry).arrival }
      ∧ (peer 47 .fresh).article &&& (shelf true).mask = (shelf true).key ∧ ¬ (0#32) &&& (shelf true).mask = (shelf true).key := by
  decide +kernel

/-- The record of the first group as it takes a notice alone. -/
def noticed (before after : Option PeerEntry) (s : State) : Option GroupRecord :=
  ((groupTakesNotice before after 0 s).group 0).map Group.record

/-- R121, R126, R143: at a replacement the table stands as after both notices, so the first evaluation shows the group without the entry that
gave way, and the second shows it with the new one. -/
theorem test_replacement_evaluations :
    let old := peer 0 .stale
    let new : PeerEntry := { peer 47 .fresh with count := 2 }
    let lanes := running.lanes.map fun lane => { lane with service := { lane.service with state := .starting } }
    let s := { withGroup (shelf true) (alertIn .raised) with lanes := lanes, peers := [new] }
    let figures (r : GroupRecord) := (r.aggregate, r.quality, r.membershipChanged)
    (noticed (some old) none s).map figures = some (24, .sure, true)
      ∧ (noticed none (some new) (groupTakesNotice (some old) none 0 s)).map figures = some (24, .sure, true) := by decide +kernel

/-- A station with number 16 hears a SURVEY. -/
theorem test_witness_survey_at_once :
    let s := (onLine hearing running).updateStation fun st => { st with number := 16 }
    Arrives 60 (.survey [(0x01020300, 0xFFFFFF00)]) surveyFrame s ∧ s.surveyNames [(0x01020300, 0xFFFFFF00)] = true
      ∧ s.number % 16 = 0 :=
  ⟨⟨by unfold Awake; decide, ⟨_, _, rfl⟩, by decide +kernel, by decide, by decide, by decide, by unfold LineCountsSound; decide⟩,
    by decide, by decide⟩

theorem test_witness_survey : Arrives 60 (.survey [(0x01020300, 0xFFFFFF00)]) surveyFrame (onLine hearing running)
    ∧ (onLine hearing running).surveyNames [(0x01020300, 0xFFFFFF00)] = true ∧ (onLine hearing running).number % 16 ≠ 0 :=
  ⟨arrives rfl rfl (by decide +kernel) (by decide) (by decide), by decide, by decide⟩

/-- The Shock Monitor of zone 7 with a holdoff. -/
def shaken (ends : Option Time) : State :=
  { onLine hearing running with shock := { ShockMonitor.reset with ownZone := 7, configured := true, holdoff := ends } }

theorem test_witness_disturb : Arrives 60 (.disturb 7 0) disturbFrame (shaken none) ∧ (shaken none).shock.applies 7 = true
    ∧ (shaken (some noon)).shock.applies 7 = true ∧ noon.before ((at' 0 (shaken none)).addMs 100) = true
    ∧ ((at' 0 (shaken none)).addMs 100).before ((at' 0 (shaken none)).addMs 100) = false :=
  ⟨arrives rfl rfl (by decide +kernel) (by decide) (by decide), by decide, by decide, by decide, by decide⟩

/-- Frames of each alert kind reach the group, whatever the state of its record. -/
theorem test_witness_alert_frames (a : Alert) :
    let s := onLine hearing (withGroup (shelf true) a)
    Arrives 16 (.raise 0x01020300 0xFFFFFF00 2 0 9 20) (raiseFrame 16) s
      ∧ Arrives 18 (.raise 0x01020300 0xFFFFFF00 2 0 9 20) (raiseFrame 18) s
      ∧ Arrives 60 (.clear 0x01020300 0xFFFFFF00) clearFrame s ∧ Arrives 61 (.take 0x01020300 0xFFFFFF00 5 1) (takeFrame 1) s
      ∧ Arrives 61 (.take 0x01020300 0xFFFFFF00 5 0) (takeFrame 0) s
      ∧ s.findGroup 0x01020300 0xFFFFFF00 = some 0 ∧ s.group 0 = some ⟨shelf true, a⟩ ∧ shortageOf 2 = some .empty
      ∧ (16 < s.number ∧ s.number < 18) ∧ s.joining = false :=
  ⟨arrives rfl rfl (by decide +kernel) (by decide) (by decide), arrives rfl rfl (by decide +kernel) (by decide) (by decide),
    arrives rfl rfl (by decide +kernel) (by decide) (by decide), arrives rfl rfl (by decide +kernel) (by decide) (by decide),
    arrives rfl rfl (by decide +kernel) (by decide) (by decide), rfl, rfl, rfl, by show 16 < 17 ∧ 17 < 18; decide, rfl⟩

theorem test_witness_query : Arrives 63 (.query (onLine hearing running).number) queryFrame (onLine hearing running)
    ∧ running.queue.any (fun x => x.waitsFor .status) = false
    ∧ [entry .status .waiting 0].any (fun x => x.waitsFor .status) = true :=
  ⟨arrives rfl rfl (by decide +kernel) (by decide) (by decide), by decide, by decide⟩

/-- Four RAISEs and, of class 3, the entries given. -/
def crowded (last : List Body) : State :=
  { onLine hearing running with queue := ([raiseIn 0, raiseIn 1, raiseIn 2, raiseIn 3] ++ last).map fun b => entry b .waiting 0 }

theorem test_witness_full_queue :
    let s := crowded [stockIn 0, stockIn 1, stockIn 2, stockIn 3]
    let joins := crowded [stockIn 0, stockIn 1, stockIn 2, .survey []]
    (∀ last, Arrives 63 (.query (crowded last).number) queryFrame (crowded last))
      ∧ s.queue.any (fun x => x.waitsFor .status) = false ∧ s.queue.length = 8 ∧ QueueSound s ∧ QueueSound joins
      ∧ s.queue = s.queue.take 7 ++ entry (stockIn 3) .waiting 0 :: [] ∧ (stockIn 3).priority = 3
      ∧ joins.queue = joins.queue.take 7 ++ entry (.survey []) .waiting 0 :: [] ∧ Body.identity (.survey []) = .survey
      ∧ (crowded [.disturb 1 1, .clear 3 0 0, .clear 2 0 0, .clear 1 0 0]).queue.any (fun x => x.waitsFor .status) = false
      ∧ 8 ≤ (crowded [.disturb 1 1, .clear 3 0 0, .clear 2 0 0, .clear 1 0 0]).queue.length
      ∧ (∀ x ∈ (crowded [.disturb 1 1, .clear 3 0 0, .clear 2 0 0, .clear 1 0 0]).queue, x.waiting = true → x.body.priority ≠ 3) := by
  refine ⟨fun last => arrives rfl rfl (show judge queryFrame = .good 63 (.query 17) by decide +kernel) (by decide) (by decide), by decide, by decide, ?_, ?_, by decide, rfl,
    by decide, rfl, by decide, by decide, by decide⟩
  · unfold QueueSound; decide
  · unfold QueueSound; decide

/-- What the queue does with an offer: it waits already, finds a place, is refused, or evicts the newest STOCK. -/
theorem test_offers :
    let s := crowded [stockIn 0, stockIn 1, stockIn 2, stockIn 3]
    (offer (raiseIn 2) s).queue.length = 8 ∧ (offer (raiseIn 2) s).station.counters = Counters.zero
      ∧ (offer .status s).station.counters.queueEvictions = 1 ∧ ((offer .status s).lane 3).service.reportDue = true
      ∧ ((offer .status s).lane 2).service.reportDue = false
      ∧ (offerOrRefuse (.survey []) s).1 = false := by decide +kernel

/-- A line that has been idle for its 24 bit times since noon. -/
def idleLine (since : Time) : LineController := { LineController.reset with receiver := .ready, use := .idle since }

theorem test_witness_attempt : bestEligible [entry stockOf .waiting 0] = some (entry stockOf .waiting 0)
    ∧ bestEligible [entry stockOf .waiting 0, entry .status .waiting 0] = some (entry .status .waiting 0)
    ∧ (onLine (idleLine noon) running).line.state = .active ∧ running.inBrownOut = false
    ∧ (onLine (idleLine noon) running).line.attempt = none ∧ validNumber running.station.number = true
    ∧ running.station.phase ≠ .configFault
    ∧ (noon.addUs (64 * stockOf.priority)).notAfter (at' 192 (onLine (idleLine noon) running)) = true
    ∧ (noon.addUs (64 * stockOf.priority)).notAfter (at' 191 (onLine (idleLine noon) running)) = false := by decide

/-- Station 17 with one WAITING entry and no timer running, and with every lamp origin at the moment given. -/
def untimed (origin : Time) : State :=
  { running with
    engine := Engine.reset
    reportTimer := none
    rateTick := none
    queue := [entry stockOf .waiting 0]
    lanes := running.lanes.map fun lane =>
      { lane with service := { lane.service with refuseOrigin := origin, holdBeatOrigin := origin, faultBeatOrigin := origin } } }

/-- R82, R91: after a LINE_BUSY, and after a break, the line becomes idle 24 bit times after the last LOW one, also where LINE_IDLE comes late,
and a command that is on time does not pass over that moment. -/
theorem test_idle_moment :
    let low := onLine { hearing with receiver := .waitIdle, use := .busyOther, level := .low, lowEnd := noon.addUs 8 } (untimed (ago 1))
    low.idleEnds = [noon.addUs 200] ∧ Punctual (.lineIdle 200) low ∧ ¬ Punctual (.lineIdle 201) low
      ∧ (becomesIdle (passTime 1000 low)).line.use = .idle (noon.addUs 200) := by
  unfold Punctual; decide

/-- R68: a command that is on time leaves no lamp origin more than 2,000 ms behind. -/
theorem test_origin_moments :
    let s := onLine (idleLine (ago 1)) { untimed (ago 1999) with queue := [] }
    Punctual (.lineBusy 1000) s ∧ ¬ Punctual (.lineBusy 1001) s
      ∧ ((originAdvances (.holdBeat 2) (passTime 1000 s)).lane 2).service.holdBeatOrigin = noon.addMs 1 := by
  unfold Punctual; decide

/-- R91: a command that is on time does not pass over the first moment at which an attempt may begin. It lies at the end of the gap, or at
once where the entry comes to a line that has been idle for longer. -/
theorem test_first_moment :
    let s := onLine (idleLine noon) (untimed (ago 1))
    let late := onLine (idleLine (ago 1)) (untimed (ago 1))
    s.attemptMoments = [noon.addUs 192] ∧ late.attemptMoments = [noon]
      ∧ Punctual (.attemptBegin 192) s ∧ ¬ Punctual (.attemptBegin 193) s ∧ Punctual (.attemptBegin 0) late
      ∧ ¬ Punctual (.attemptBegin 1) late := by
  unfold Punctual; decide

/-- The best of three: a STATUS, after a STOCK that is worse and before one of its class that is later. -/
theorem test_witness_best :
    let worse := entry stockOf .waiting 0
    let best := entry .status .waiting 0
    (∀ y ∈ [worse], y.waiting = true → y.passed = true → best.body.priority < y.body.priority)
      ∧ (∀ y ∈ [entry (.clear 0 0 0) .onLine 0, best], y.waiting = true → y.passed = true → best.body.priority ≤ y.body.priority)
      ∧ best.waiting = true ∧ best.passed = true
      ∧ bestEligible ([worse] ++ best :: [entry (.clear 0 0 0) .onLine 0, best]) = some best := by decide

/-- The entry on the line. -/
def sending (stage : AttemptStage) (b : Body) (attempts : Nat) : State :=
  { onLine (attempting stage) (withGroup (shelf true) (alertIn .raised)) with queue := [entry b .onLine attempts] }

theorem test_witness_frame_sent (b : Body) (n : Nat) : LineCountsSound (sending .sending b n)
    ∧ (sending .sending b n).line.attempt = some ⟨.sending, [0xC5], ago 1, noon⟩ ∧ noon.notAfter (at' 0 (sending .sending b n)) = true
    ∧ onLineEntry (sending .sending b n).queue = some (entry b .onLine n) ∧ raiseOf.isRaiseOf 0 = true :=
  by
  refine ⟨?_, rfl, ?_, rfl, rfl⟩
  · show LineCountsSound (onLine (attempting .sending) running)
    unfold LineCountsSound
    decide
  · show noon.notAfter (noon.addUs 0) = true
    decide

/-- A STATUS is sent after any number of collisions. -/
theorem test_witness_status_sent (n : Nat) :
    let s := (sending .sending .status n).updateStation fun st =>
      { st with capture := some ⟨Counters.zero, Flags.clear, Four.all false, .none⟩ }
    s.station.capture = some ⟨Counters.zero, Flags.clear, Four.all false, .none⟩
      ∧ onLineEntry s.queue = some (entry .status .onLine n) := ⟨rfl, rfl⟩

/-- The collisions of a sent STATUS are counted before it takes off what it captured (log 30). -/
theorem test_counted_then_reduced :
    ((countCollisions 1 running).count .singleCollisions 65535).station.counters.singleCollisions = 65535
      ∧ (((countCollisions 1 running).station.counters.less Counters.zero).singleCollisions,
        ((countCollisions 7 running).station.counters.less Counters.zero).multipleCollisions) = (1, 1) := by decide

/-- The outcomes told to the owner: of a RAISE whose group is CLEAR by now, of one that is discarded below and at the threshold, and of the
SURVEY of a station in JOINING. -/
theorem test_witness_outcomes :
    let below := onLine { attempting .jamming with tecCount := 119 } (withGroup (shelf true) (alertIn .raised))
    let at120 := onLine { attempting .jamming with tecCount := 120 } (withGroup (shelf false) (alertIn .raised))
    (withGroup (shelf true) quiet).group 0 = some ⟨shelf true, quiet⟩ ∧ quiet.state = .clear
      ∧ LineCountsSound below ∧ below.line.tecCount < 120 ∧ LineCountsSound at120 ∧ 120 ≤ at120.line.tecCount
      ∧ at120.line.state = .active ∧ (alertIn .raised).raiseSent = false ∧ (shelf true).condition = true
      ∧ (shelf false).condition = false ∧ (∀ g, (Body.survey []).isRaiseOf g = false)
      ∧ (running.updateStation fun st => { st with joinTimer := some ⟨ago 9, .offered⟩ }).station.joinTimer = some ⟨ago 9, .offered⟩ := by
  unfold LineCountsSound; decide

theorem test_witness_collision : (sending .sending stockOf 0).line.attempt = some ⟨.sending, [0xC5], ago 1, noon⟩
    ∧ (at' 0 (sending .sending stockOf 0)).notAfter noon = true
    ∧ (sending .jamming stockOf 6).line.attempt = some ⟨.jamming, [0xC5], ago 1, noon⟩
    ∧ noon.notAfter (at' 0 (sending .jamming stockOf 6)) = true
    ∧ onLineEntry (sending .jamming stockOf 6).queue = some (entry stockOf .onLine 6)
    ∧ (sending .jamming stockOf 6).queue.any (fun o => o.waitsFor (.stock 0)) = false
    ∧ onLineEntry (sending .jamming stockOf 7).queue = some (entry stockOf .onLine 7) := by decide

/-- At a jam's end an entry that another waits for, and a DISTURB past its hold or not. -/
theorem test_witness_return : ¬ Outlived noon (entry stockOf .onLine 6) ∧ (entry stockOf .waiting 0).waitsFor stockOf.identity = true
    ∧ MayWait noon (entry stockOf .onLine 6) [entry stockOf .onLine 6]
    ∧ Outlived noon (entry (.disturb 1 0) .onLine 6) ∧ ¬ Outlived noon (entry (.disturb 1 1) .onLine 6)
    ∧ ¬ Outlived noon { entry (.disturb 1 1) .waiting 0 with enqueued := ago 100 }
    ∧ Outlived noon { entry (.disturb 1 1) .waiting 0 with enqueued := ago 101 } := by
  have outlived (zone : Byte) (hold : Nat) (enqueued : Time) (x : Entry) (hb : x.body = .disturb zone hold) (he : x.enqueued = enqueued) :
      Outlived noon x ↔ (enqueued.addMs (hold * 100 + 1)).notAfter noon = true := by
    constructor
    · rintro ⟨z, h, h1, h2⟩
      rw [hb] at h1
      cases h1
      rw [← he]
      exact h2
    · intro h
      exact ⟨zone, hold, hb, by rw [he]; exact h⟩
  refine ⟨fun ⟨_, _, h, _⟩ => by (cases h), by decide, ⟨rfl, by decide, fun ⟨_, _, h, _⟩ => by (cases h)⟩, (outlived 1 0 _ _ rfl rfl).2 (by decide), fun h => ?_, fun h => ?_,
    (outlived 1 1 _ _ rfl rfl).2 (by decide)⟩
  · exact absurd ((outlived 1 1 _ _ rfl rfl).1 h) (by decide)
  · exact absurd ((outlived 1 1 _ _ rfl rfl).1 h) (by decide)

theorem test_witness_line_timers : ((ago 50).addMs 50).notAfter (at' 0 running) = true ∧ noon.notAfter (at' 0 running) = true
    ∧ LineCountsSound (onLine { LineController.reset with tecCount := 120, stuckSince := some (ago 50) } running)
    ∧ LineCountsSound (onLine { LineController.reset with tecCount := 96, state := .listenOnly, secondTimer := some noon } running)
    ∧ LineCountsSound (onLine { LineController.reset with tecCount := 97, state := .listenOnly, secondTimer := some noon } running) := by
  unfold LineCountsSound; decide

theorem test_witness_buttons : running.station.config = some ⟨settings, Four.all sacks⟩
    ∧ (running.lane 0).service.buttonInput ≠ true ∧ due (some noon) (at' 0 running) = true
    ∧ (serviced fun sv => { sv with buttonInput := true }).settings.buttonActiveHigh.get 0 = true
    ∧ ((ago 1500).addMs 1500).notAfter (at' 0 running) = true ∧ ((ago 2000).addMs 2000).notAfter (at' 0 running) = true := by decide

/-- Lane 0 with its button released after a press, in a lane state. -/
def released (state : LaneState) (press : Press) : State :=
  serviced fun sv => { sv with state := state, button := .active, debounce := some noon, press := press, holdTimer := some noon }

theorem test_witness_release (state : LaneState) (press : Press) :
    let s := released state press
    due (s.lane 0).service.debounce (at' 0 s) = true ∧ (s.lane 0).service.buttonInput ≠ s.settings.buttonActiveHigh.get 0
      ∧ (s.lane 0).service.button = .active ∧ (s.lane 0).service.press = press ∧ (s.lane 0).service.state = state
      ∧ s.inBrownOut = false :=
  ⟨by show due (some noon) (noon.addUs 0) = true; decide, by show ¬ false = true; decide, rfl, rfl, rfl, rfl⟩

/-- A release that puts lane 0 on hold changes it, and no other lane; the first group holds its article. -/
theorem test_witness_lane_changes :
    let s := { released .inService (.running (ago 100)) with groups := (withGroup (shelf true) quiet).groups }
    (∃ t, exec (.release 0 0) s = .next t ∧ LaneDiffers s t 0 ∧ ∀ m, m ≠ 0 → ¬ LaneDiffers s t m)
      ∧ (s.laneSettings 0).article &&& (shelf true).mask = (shelf true).key ∧ s.group 0 = some ⟨shelf true, quiet⟩ := by
  intro s
  refine ⟨?_, by decide +kernel, rfl⟩
  let freed := (passTime 0 s).updateService 0 fun sv => { sv with button := .inactive, debounce := none, press := .none }
  have awake : s.station.phase ≠ .reset := by decide
  have event : exec (.release 0 0) s = .next (keepUp (changeLane 0 (Lane.enterHeld freed.now freed.settings.holdLimitMin) freed)) := by
    show Host.Outcome.next (timed 0 _ s) = _
    rw [timed_awake awake, if_pos (by decide)]
    rfl
  have agrees := changeLane_agrees 0 (Lane.enterHeld freed.now freed.settings.holdLimitMin) freed
  refine ⟨_, event, Or.inl ?_, fun m hm => ?_⟩
  · rw [keepUp_lane, agrees.laneState]
    decide
  · unfold LaneDiffers
    rw [keepUp_lane, agrees.laneState, agrees.counter]
    revert m
    decide

theorem test_witness_long_press :
    let s := released .inService (.running (ago 3000))
    (s.lane 0).service.press = .running (ago 3000) ∧ ((ago 3000).addMs 3000).notAfter (at' 0 s) = true
      ∧ (s.lane 0).weighing.motion = .settled 20400 ∧ ((20400 : Int) - (s.laneSettings 0).tare).natAbs ≤ (s.laneSettings 0).zeroLimit
      ∧ (released .held (.running (ago 3000)) |>.lane 0).service.state ≠ .inService := by decide

theorem test_witness_hold_limit : (released .held .none |>.lane 0).service.state = .held
    ∧ due (released .held .none |>.lane 0).service.holdTimer (at' 0 (released .held .none)) = true := by decide

theorem test_witness_reports : running.reportTimer = some noon ∧ noon.notAfter (at' 0 running) = true
    ∧ due (some noon) (at' 0 (serviced fun sv => { sv with surveyDelay := some noon })) = true := by decide

theorem test_witness_holdoff : due (shaken (some noon)).shock.holdoff (at' 0 (shaken (some noon))) = true
    ∧ due (some noon) (at' 0 running) = true := by decide

/-- Station 17 with one entry in its table. -/
def knowing (age : AgeState) : State := { running with peers := [peer 0 age] }

theorem test_witness_peers : findPeer 20 0 (knowing .fresh).peers = some (peer 0 .fresh)
    ∧ running.settings.reportIntervalS * 3000 < running.settings.forgetTimeMin * 60000
    ∧ ((peer 0 .fresh).arrival.addMs (running.settings.reportIntervalS * 3000 + 1)).notAfter (at' 0 (knowing .fresh)) = true
    ∧ ((peer 0 .fresh).arrival.addMs (running.settings.forgetTimeMin * 60000 + 1)).notAfter (at' 0 (knowing .stale)) = true := by
  decide +kernel

theorem test_witness_rate_tick : running.rateTick = some noon ∧ noon.notAfter (at' 0 running) = true := by decide

/-- Every timer of the alert record is due. -/
theorem test_witness_alert_timers (condition : Bool) (state : AlertState) :
    let s := withGroup (shelf condition) (alertIn state)
    s.group 0 = some ⟨shelf condition, alertIn state⟩ ∧ due (alertIn state).deference (at' 0 s) = true
      ∧ due (alertIn state).repeatTimer (at' 0 s) = true ∧ due (alertIn state).watch (at' 0 s) = true
      ∧ due (alertIn state).takenUntil (at' 0 s) = true ∧ s.queue.length < 8 := by
  have h : due (some noon) (noon.addUs 0) = true := by decide
  exact ⟨rfl, h, h, h, h, by show 0 < 8; decide⟩

/-- A JOINING station with its groups. -/
def joining (r : State) (entered : Time) (survey : SurveyProgress) : State :=
  r.updateStation fun st => { st with phase := .joining, joinTimer := some ⟨entered, survey⟩ }

theorem test_witness_joining : (joining running (ago 3000) .notOffered).station.joinTimer = some ⟨ago 3000, .notOffered⟩
    ∧ ((ago 3000).addMs 3000).notAfter (at' 0 (joining running (ago 3000) .notOffered)) = true
    ∧ (joining running (ago 3000) .notOffered).groupPairs = []
    ∧ (joining (withGroup (shelf true) quiet) (ago 3000) .notOffered).groupPairs ≠ []
    ∧ ((ago 4000).addMs 4000).notAfter (at' 0 (joining running (ago 7000) (.settled (ago 4000)))) = true
    ∧ ((ago 30000).addMs 30000).notAfter (at' 0 (joining running (ago 30000) .offered)) = true := by decide

/-- A queue in which a SURVEY waits already, and a full one without one. -/
theorem test_witness_survey_refused : [entry (.survey []) .waiting 0].any (fun x => x.waitsFor .survey) = true
    ∧ (crowded [stockIn 0, stockIn 1, stockIn 2, stockIn 3]).queue.any (fun x => x.waitsFor .survey) = false
    ∧ 8 ≤ (crowded [stockIn 0, stockIn 1, stockIn 2, stockIn 3]).queue.length := by decide

theorem test_witness_settlement : (1500000 + 1 : Int) > (sacks.capacityKg : Int) * 1000 ∧ (-200 : Int) ≥ -(sacks.band : Int)
    ∧ (-201 : Int) < -(sacks.band : Int) ∧ ((1950 : Int) + 50).natAbs ≤ sacks.zeroLimit ∧ sacks.zeroLimit < ((1950 : Int) + 51).natAbs := by
  decide

theorem test_witness_settling : Weighing.reset.motion = .moving
    ∧ ({ Weighing.reset with motion := .settled 5 } : Weighing).motion = .settled 5 := by decide

theorem test_witness_lamps : (serviced fun sv => { sv with state := .held, flash := true }).station.phase = .running
    ∧ State.reset.station.phase = .reset := by decide

/-- A lane with an own group and one without, and the events that make a pattern SLOW, or leave it. -/
theorem test_witness_group_lamps :
    let s := withGroup (shelf true) (alertIn .raised)
    s.group 0 = some ⟨shelf true, alertIn .raised⟩ ∧ (shelf true).mask = (s.laneSettings 0).mask
      ∧ (shelf true).key = (s.laneSettings 0).article &&& (s.laneSettings 0).mask ∧ (∀ g, running.group g = none)
      ∧ ((alertIn .raised).toTaken noon 5).pattern = .slow ∧ (alertIn .raised).pattern ≠ .slow
      ∧ ((alertIn .taken).toTaken noon 6).pattern = (alertIn .taken).pattern := by decide

theorem test_witness_formed : (∀ pairs, stockOf = .survey pairs → 1 ≤ pairs.length ∧ pairs.length ≤ 4)
    ∧ (∀ n < 4, ∀ pairs, Body.survey (List.replicate (n + 1) (0x01020300, 0xFFFFFF00)) = .survey pairs →
      1 ≤ pairs.length ∧ pairs.length ≤ 4) := by
  refine ⟨fun _ h => by (cases h), fun n hn pairs h => ?_⟩
  cases h
  rw [List.length_replicate]
  omega

/-- The group with a reorder point, its four lanes in a state, and the suspending member as before. -/
def judging (reorder : Nat) (state : LaneState) (suspending : Bool) : State :=
  { withGroup { shelf true with reorderPoint := reorder, suspending := suspending } (alertIn .raised) with
    lanes := running.lanes.map fun lane => { lane with service := { lane.service with state := state } } }

/-- The record that an evaluation makes of the group's. -/
def judged (s : State) : Option GroupRecord :=
  (s.group 0).map fun gr => gr.record.evaluated (s.holders gr.record.key gr.record.mask)

/-- An evaluation may find nothing changed, the condition gone, the level changed, the quality INDETERMINATE, and a suspending member come
or gone. -/
theorem test_witness_evaluation :
    (judged (judging 1000 .inService false)).map (fun r => (r.level, r.quality, r.condition, r.suspending))
        = some (.low, .sure, true, false)
      ∧ (judged (judging 20 .inService false)).map (fun r => (r.level, r.quality, r.condition)) = some (.ok, .sure, false)
      ∧ (judged (judging 1000 .starting false)).map (fun r => (r.quality, r.condition)) = some (.indeterminate, false)
      ∧ (judged (judging 1000 .held false)).map GroupRecord.suspending = some true
      ∧ (judged (judging 1000 .inService true)).map GroupRecord.suspending = some false
      ∧ Level.shortage .empty ≠ Level.shortage .low := by decide +kernel

/-- An offer of class 0 has a place in an empty queue, with a waiting entry of its identity, and beside a worse class; not among eight of
class 0. -/
theorem test_places : HasPlace (.alert 0) [] ∧ HasPlace (.alert 2) (crowded [stockIn 0, stockIn 1, stockIn 2, stockIn 3]).queue
    ∧ HasPlace (.alert 0) (crowded [stockIn 0, stockIn 1, stockIn 2, stockIn 3]).queue
    ∧ ¬ HasPlace (.alert 0) (List.replicate 8 (entry (raiseIn 1) .waiting 0)) := by
  unfold HasPlace; decide

end Sys2Proof.Tests
end

