-- ==== Sys2Proof/Proofs/RestockAlerts.lean ====
section
/-! PROOF. How a following and a take end (10, R158, R159, R161, R162): what the Alert Controller's test leaves in the group's records and
what it leaves alone, how a timer and a good frame reach it, and the statements settled from these. -/

namespace Sys2Proof.Machine

/-! ## The groups' records and nothing else -/

/-- The state without the groups' records and the counter of free choices. -/
def State.groupsView (s : State) : State := { s with groups := Four.all none, choices := 0 }

/-- Two states that agree but for the groups' records and the counter of free choices. -/
def State.AgreesButGroups (t s : State) : Prop := t.groupsView = s.groupsView

namespace State.AgreesButGroups

variable {s t u : State}

theorem refl (s : State) : s.AgreesButGroups s := rfl

theorem trans (h : u.AgreesButGroups t) (k : t.AgreesButGroups s) : u.AgreesButGroups s := Eq.trans h k

theorem view {β : Type} (f : State → β) (h : t.AgreesButGroups s) : f t.groupsView = f s.groupsView := congrArg f h

theorem aisle (h : t.AgreesButGroups s) : t.AgreesButAisle s := h.view State.aisleView

theorem lanes (h : t.AgreesButGroups s) : t.lanes = s.lanes := h.view State.lanes

theorem queue (h : t.AgreesButGroups s) : t.queue = s.queue := h.view State.queue

end State.AgreesButGroups

theorem updateAlert_agreesButGroups (g : GroupNo) (f : Alert → Alert) (s : State) :
    (s.updateAlert g f).AgreesButGroups s := rfl

theorem onGroup_agreesButGroups {g : GroupNo} {event : Group → State → State}
    (h : ∀ gr s, (event gr s).AgreesButGroups s) (s : State) : (s.onGroup g event).AgreesButGroups s := by
  unfold State.onGroup
  split
  · exact h _ s
  · exact .refl s

theorem enterPending_agreesButGroups (g : GroupNo) (s : State) : (enterPending g s).AgreesButGroups s := by
  unfold enterPending
  exact onGroup_agreesButGroups (fun _ s => updateAlert_agreesButGroups g _ (s.draw 64).2) s

theorem pendingOrClear_agreesButGroups (g : GroupNo) (s : State) : (pendingOrClear g s).AgreesButGroups s :=
  onGroup_agreesButGroups (fun _ s => by
    split
    · exact enterPending_agreesButGroups g s
    · exact updateAlert_agreesButGroups g _ s) s

theorem testClear_agreesButGroups (g : GroupNo) (s : State) : (testClear g s).AgreesButGroups s :=
  onGroup_agreesButGroups (fun _ s => by
    split
    · exact enterPending_agreesButGroups g s
    · exact .refl s) s

/-! ## An alert record with its pattern origin kept up -/

section
variable (before after : Alert) (now : Time)

@[simp] theorem Alert.withOrigin_state : (before.withOrigin after now).state = after.state := by
  unfold Alert.withOrigin; split <;> rfl

@[simp] theorem Alert.withOrigin_level : (before.withOrigin after now).level = after.level := by
  unfold Alert.withOrigin; split <;> rfl

@[simp] theorem Alert.withOrigin_raiser : (before.withOrigin after now).raiser = after.raiser := by
  unfold Alert.withOrigin; split <;> rfl

@[simp] theorem Alert.withOrigin_deference : (before.withOrigin after now).deference = after.deference := by
  unfold Alert.withOrigin; split <;> rfl

@[simp] theorem Alert.withOrigin_watch : (before.withOrigin after now).watch = after.watch := by
  unfold Alert.withOrigin; split <;> rfl

@[simp] theorem Alert.withOrigin_takenUntil : (before.withOrigin after now).takenUntil = after.takenUntil := by
  unfold Alert.withOrigin; split <;> rfl

@[simp] theorem Alert.withOrigin_terminal : (before.withOrigin after now).terminal = after.terminal := by
  unfold Alert.withOrigin; split <;> rfl

end

/-! ## The records after the test -/

/-- The record is in PENDING, with a deference of the rank and a jitter taken from the state (R148). -/
def Alert.DeferredIn (s : State) (r : GroupRecord) (a : Alert) : Prop :=
  a.state = .pending ∧ ∃ jitter < 64, a.deference = some (s.now.addMs (s.deferenceMs r jitter))

/-- The record after a following or a take that has ended in the state: PENDING where the condition holds outside JOINING and CLEAR
otherwise, with nothing left of what has ended. -/
structure Alert.EndedIn (s : State) (r : GroupRecord) (a : Alert) : Prop where
  level : a.level = none
  raiser : a.raiser = none
  watch : a.watch = none
  takenUntil : a.takenUntil = none
  terminal : a.terminal = 0
  deferred : r.condition = true → s.joining = false → a.DeferredIn s r
  clear : r.condition = false ∨ s.joining = true → a.state = .clear

/-- The group is there in `t` with the record it had, and its following or take has ended in `s`. -/
def State.AlertEnds (g : GroupNo) (gr : Group) (s t : State) : Prop :=
  ∃ after, t.group g = some after ∧ after.record = gr.record ∧ after.alert.EndedIn s gr.record

section
variable {g : GroupNo} {gr : Group} {s : State}

theorem Alert.toClear_endedIn {r : GroupRecord} (h : ¬ (r.condition && !s.joining) = true) (b a : Alert) (now : Time) :
    (b.withOrigin a.toClear now).EndedIn s r where
  level := withOrigin_level ..
  raiser := withOrigin_raiser ..
  watch := withOrigin_watch ..
  takenUntil := withOrigin_takenUntil ..
  terminal := withOrigin_terminal ..
  deferred := fun hc hj => absurd (by rw [hc, hj]; rfl) h
  clear := fun _ => withOrigin_state ..

theorem Alert.toPending_endedIn {r : GroupRecord} (h : (r.condition && !s.joining) = true) {jitter : Nat} (hj : jitter < 64)
    (b a : Alert) (now : Time) :
    (b.withOrigin (a.toPending (s.now.addMs (s.deferenceMs r jitter))) now).EndedIn s r where
  level := withOrigin_level ..
  raiser := withOrigin_raiser ..
  watch := withOrigin_watch ..
  takenUntil := withOrigin_takenUntil ..
  terminal := withOrigin_terminal ..
  deferred := fun _ _ => ⟨withOrigin_state .., jitter, hj, withOrigin_deference ..⟩
  clear := fun hc => by rcases hc with hc | hc <;> simp [hc] at h

/-- A change of an alert record leaves everything that a deference is taken from. -/
theorem Alert.EndedIn.of_updateAlert {r : GroupRecord} {a : Alert} {f : Alert → Alert} (h : a.EndedIn (s.updateAlert g f) r) :
    a.EndedIn s r :=
  ⟨h.level, h.raiser, h.watch, h.takenUntil, h.terminal, h.deferred, h.clear⟩

theorem onGroup_some (h : s.group g = some gr) (event : Group → State → State) : s.onGroup g event = event gr s := by
  unfold State.onGroup
  rw [h]

theorem updateAlert_group (h : s.group g = some gr) (f : Alert → Alert) :
    (s.updateAlert g f).group g = some { gr with alert := gr.alert.withOrigin (f gr.alert) s.now } := by
  rw [State.updateAlert, updateGroup_group_self, h]
  rfl

theorem draw_lt {range : Nat} (h : 0 < range) (s : State) : (s.draw range).1 < range := Nat.mod_lt _ h

theorem enterPending_group (h : s.group g = some gr) : ∃ jitter < 64, (enterPending g s).group g
    = some { gr with alert := gr.alert.withOrigin (gr.alert.toPending (s.now.addMs (s.deferenceMs gr.record jitter))) s.now } := by
  refine ⟨(s.draw 64).1, draw_lt (by decide) s, ?_⟩
  rw [enterPending, onGroup_some h]
  exact updateAlert_group (s := (s.draw 64).2) h _

theorem enterPending_alertEnds (h : s.group g = some gr) (hp : (gr.record.condition && !s.joining) = true) :
    s.AlertEnds g gr (enterPending g s) := by
  obtain ⟨jitter, hj, hg⟩ := enterPending_group h
  exact ⟨_, hg, rfl, Alert.toPending_endedIn hp hj gr.alert gr.alert s.now⟩

theorem updateAlert_toClear_alertEnds (h : s.group g = some gr) (hp : ¬ (gr.record.condition && !s.joining) = true) :
    s.AlertEnds g gr (s.updateAlert g Alert.toClear) :=
  ⟨_, updateAlert_group h _, rfl, Alert.toClear_endedIn hp gr.alert gr.alert s.now⟩

/-- The end of a take or of a watch (R159, R161, R162). -/
theorem pendingOrClear_alertEnds (h : s.group g = some gr) : s.AlertEnds g gr (pendingOrClear g s) := by
  rw [pendingOrClear, onGroup_some h]
  split
  next hp => exact enterPending_alertEnds h hp
  next hp => exact updateAlert_toClear_alertEnds h hp

/-- The end of a following by a CLEAR heard (R158): the record becomes CLEAR and is tested there. -/
theorem testClear_toClear_alertEnds (h : s.group g = some gr) :
    s.AlertEnds g gr (testClear g (s.updateAlert g Alert.toClear)) := by
  have cleared := updateAlert_group h Alert.toClear
  rw [testClear, onGroup_some cleared]
  by_cases hp : (gr.record.condition && !s.joining) = true
  · rw [if_pos]
    · obtain ⟨after, ha, hr, ended⟩ := enterPending_alertEnds cleared hp
      exact ⟨after, ha, hr, ended.of_updateAlert⟩
    · rw [Alert.withOrigin_state]
      exact hp
  · rw [if_neg]
    · exact updateAlert_toClear_alertEnds h hp
    · rw [Alert.withOrigin_state]
      exact hp

end

/-! ## The passing of time -/

theorem passTime_unmarked (e : Nat) (s : State) : unmarked (passTime e s).queue = unmarked s.queue :=
  passTime_queue_map _ (fun _ => rfl) e s

theorem keepUp_unmarked (s : State) : unmarked (keepUp s).queue = unmarked s.queue := keepUp_queue_map _ (fun _ => rfl) s

theorem State.AgreesButGroups.unmarked_keepUp {s t : State} (h : t.AgreesButGroups s) :
    unmarked (keepUp t).queue = unmarked s.queue :=
  (keepUp_unmarked t).trans (congrArg unmarked h.queue)

/-! ## The timers (R159, R162) -/

section
variable {e : Nat} {g : GroupNo} {gr : Group} {s : State}

theorem exec_watchExpiry_due (awake : Awake s) (hg : s.group g = some gr) (hs : gr.alert.state = .following)
    (hd : due gr.alert.watch (at' e s) = true) :
    exec (.watchExpiry e g) s = .next (keepUp (pendingOrClear g (passTime e s))) := by
  change Host.Outcome.next (timed e _ s) = _
  rw [timed_awake awake, onGroup_some ((passTime_group e s g).trans hg), if_pos ⟨hs, hd⟩]

theorem exec_takenExpiry_due (awake : Awake s) (hg : s.group g = some gr) (hs : gr.alert.state = .taken)
    (hd : due gr.alert.takenUntil (at' e s) = true) :
    exec (.takenExpiry e g) s = .next (keepUp (pendingOrClear g (passTime e s))) := by
  change Host.Outcome.next (timed e _ s) = _
  rw [timed_awake awake, onGroup_some ((passTime_group e s g).trans hg), if_pos ⟨hs, hd⟩]

end

/-! ## A good frame on its way to its filter (R88, R101) -/

section
variable {e sender : Nat} {body : RxBody} {chars : List Byte} {s : State} {key mask : Word} {terminal : Byte} {g : GroupNo}

/-- The state in which a good frame meets its filter: time has passed, and the Line Controller is as given. -/
def atFilter (e : Nat) (lc : LineController) (s : State) : State := { passTime e s with line := lc }

theorem atFilter_group (e : Nat) (lc : LineController) (s : State) (g : GroupNo) : (atFilter e lc s).group g = s.group g := rfl

theorem atFilter_findGroup (e : Nat) (lc : LineController) (s : State) (key mask : Word) :
    (atFilter e lc s).findGroup key mask = s.findGroup key mask := rfl

theorem atFilter_unmarked (e : Nat) (lc : LineController) (s : State) :
    unmarked (atFilter e lc s).queue = unmarked s.queue := passTime_unmarked e s

/-- With sound counts the reception of a good frame changes the Line Controller alone before the frame meets its filter. -/
theorem lowerRec_received (sound : LineCountsSound s) (e : Nat) (chars : List Byte) :
    ∃ lc, lowerRec (waitIdle (heardFrame chars (passTime e s))) = atFilter e lc s :=
  ⟨_, lowerRec_eq (s := waitIdle (heardFrame chars (passTime e s))) sound⟩

theorem filterFrame_of_ne (valid : validNumber s.station.number = true) (ne0 : sender ≠ 0) (own : sender ≠ s.number)
    (body : RxBody) : filterFrame sender body s = filterByKind sender body s := by
  unfold filterFrame
  rw [if_neg (by simp [valid]), if_neg ne0, if_neg own]

/-- A frame that arrives reaches the filter by kind in the state `atFilter`, for some Line Controller. -/
theorem Arrives.received (h : Arrives sender body chars s) (e : Nat) : ∃ lc, timed e (frameReceived chars) s
    = keepUp (filterByKind sender body (atFilter e lc s)) := by
  obtain ⟨awake, ⟨received, stopEnd, receiving⟩, judged, valid, ne0, own, sound⟩ := h
  obtain ⟨lc, hlc⟩ := lowerRec_received sound e chars
  refine ⟨lc, ?_⟩
  have reaches : frameReceived chars (passTime e s) = filterFrame sender body (atFilter e lc s) := by
    unfold frameReceived
    rw [passTime_line, receiving, judged, ← hlc]
    rfl
  rw [timed_awake awake, reaches, filterFrame_of_ne (s := atFilter e lc s) valid ne0 own]

/-- A frame that arrives is an event of a row whose test its body passes. -/
theorem Arrives.checked_next (h : Arrives sender body chars s) {test : RxBody → Bool} (ht : test body = true) (t : State) :
    checked (goodOk test chars) t = .next t := by
  obtain ⟨-, -, judged, -⟩ := h
  unfold checked goodOk
  rw [judged]
  exact if_pos ht

theorem filterClear_of_station (h1 : 1 ≤ sender) (h60 : sender ≤ 60) (hg : s.findGroup key mask = some g) :
    filterClear sender key mask s = clearHeard g sender s := by
  unfold filterClear
  rw [hg]
  exact if_pos (by simp [isStation, h1, h60])

theorem filterTake_release (h61 : 61 ≤ sender) (h63 : sender ≤ 63) (hg : s.findGroup key mask = some g) :
    filterTake sender key mask terminal 0 s = releaseHeard g terminal s := by
  unfold filterTake fromGateway
  rw [if_pos (by simp [isGateway, h61, h63])]
  dsimp only
  rw [hg]
  rfl

theorem exec_clearReceived (h : Arrives sender (.clear key mask) chars s) (h60 : sender ≤ 60)
    (hg : s.findGroup key mask = some g) : ∃ lc, exec (.clearReceived e chars) s
      = .next (keepUp (clearHeard g sender (atFilter e lc s))) := by
  obtain ⟨lc, hlc⟩ := h.received e
  have ⟨_, _, _, _, ne0, _⟩ := h
  refine ⟨lc, (h.checked_next rfl _).trans ?_⟩
  rw [hlc]
  exact congrArg (fun t => Host.Outcome.next (keepUp t))
    (filterClear_of_station (Nat.pos_of_ne_zero ne0) h60 ((atFilter_findGroup e lc s key mask).trans hg))

theorem exec_takeRelease (h : Arrives sender (.take key mask terminal 0) chars s) (h61 : 61 ≤ sender) (h63 : sender ≤ 63)
    (hg : s.findGroup key mask = some g) : ∃ lc, exec (.takeRelease e chars) s
      = .next (keepUp (releaseHeard g terminal (atFilter e lc s))) := by
  obtain ⟨lc, hlc⟩ := h.received e
  refine ⟨lc, (h.checked_next rfl _).trans ?_⟩
  rw [hlc]
  exact congrArg (fun t => Host.Outcome.next (keepUp t))
    (filterTake_release h61 h63 ((atFilter_findGroup e lc s key mask).trans hg))

end

/-! ## What a CLEAR and a release do (R158, R161) -/

section
variable {sender : Nat} {terminal : Byte} {g : GroupNo} {gr : Group} {s : State}

theorem clearHeard_ends (h : s.group g = some gr) (hc : gr.alert.state = .following ∧ gr.alert.raiser = some sender) :
    clearHeard g sender s = testClear g (s.updateAlert g Alert.toClear) := by
  rw [clearHeard, onGroup_some h, if_pos hc]

theorem clearHeard_ignored (h : s.group g = some gr) (hc : ¬ (gr.alert.state = .following ∧ gr.alert.raiser = some sender)) :
    clearHeard g sender s = s := by
  rw [clearHeard, onGroup_some h, if_neg hc]

theorem clearHeard_agreesButGroups (g : GroupNo) (sender : Nat) (s : State) : (clearHeard g sender s).AgreesButGroups s :=
  onGroup_agreesButGroups (fun _ s => by
    split
    · exact (testClear_agreesButGroups g _).trans (updateAlert_agreesButGroups g _ s)
    · exact .refl s) s

theorem releaseHeard_ends (h : s.group g = some gr) (hc : gr.alert.state = .taken ∧ gr.alert.terminal = terminal) :
    releaseHeard g terminal s = pendingOrClear g s := by
  rw [releaseHeard, onGroup_some h, if_pos hc]

theorem releaseHeard_refused (h : s.group g = some gr) (hc : ¬ (gr.alert.state = .taken ∧ gr.alert.terminal = terminal)) :
    releaseHeard g terminal s = refuseGateway s := by
  rw [releaseHeard, onGroup_some h, if_neg hc]

end

/-! ## The statements -/

/-- Settles O48: both timers run the same test, in the state that the passing of time leaves. -/
theorem watchAndTakeExpire : Obligations.WatchAndTakeExpire := by
  intro e g gr s awake hg ended
  have ends : ended (keepUp (pendingOrClear g (passTime e s))) := by
    obtain ⟨after, ha, hr, h⟩ := pendingOrClear_alertEnds ((passTime_group e s g).trans hg)
    have same := pendingOrClear_agreesButGroups g (passTime e s)
    exact ⟨after, ha, hr, h.level, h.raiser, h.watch, h.takenUntil, h.terminal, h.deferred, h.clear, same.lanes,
      same.unmarked_keepUp.trans (passTime_unmarked e s), same.aisle.peers⟩
  exact ⟨fun hs hd => ⟨_, exec_watchExpiry_due awake hg hs hd, ends⟩,
    fun hs hd => ⟨_, exec_takenExpiry_due awake hg hs hd, ends⟩⟩

/-- Settles O28, by whether the CLEAR is the recorded raiser's to a record in FOLLOWING. -/
theorem clearHeardEndsTheFollowing : Obligations.ClearHeardEndsTheFollowing := by
  intro e sender key mask g gr chars s arrives h60 found hg
  obtain ⟨lc, runs⟩ := exec_clearReceived (e := e) arrives h60 found
  have there := (atFilter_group e lc s g).trans hg
  have same := clearHeard_agreesButGroups g sender (atFilter e lc s)
  by_cases hc : gr.alert.state = .following ∧ gr.alert.raiser = some sender
  · obtain ⟨after, ha, hr, h⟩ := testClear_toClear_alertEnds there
    rw [← clearHeard_ends there hc] at ha
    exact ⟨_, after, runs, ha, hr, fun _ _ => ⟨h.clear, h.deferred, h.raiser, h.level, h.watch⟩,
      fun other => absurd hc (not_and_or.mpr other), same.lanes, same.aisle.peers, same.aisle.shock, same.aisle.engine⟩
  · have ignored := (congrArg (State.group · g) (clearHeard_ignored there hc)).trans there
    exact ⟨_, gr, runs, ignored, rfl, fun hf hs => absurd ⟨hf, hs⟩ hc, fun _ => rfl, same.lanes, same.aisle.peers,
      same.aisle.shock, same.aisle.engine⟩

/-- Settles O30, by whether the release is the taker terminal's to a record in TAKEN. -/
theorem releaseEndsTheTake : Obligations.ReleaseEndsTheTake := by
  intro e sender key mask terminal g gr chars s arrives h61 h63 found hg
  obtain ⟨lc, runs⟩ := exec_takeRelease (e := e) arrives h61 h63 found
  have there := (atFilter_group e lc s g).trans hg
  by_cases hc : gr.alert.state = .taken ∧ gr.alert.terminal = terminal
  · rw [releaseHeard_ends there hc] at runs
    obtain ⟨after, ha, hr, h⟩ := pendingOrClear_alertEnds there
    have same := pendingOrClear_agreesButGroups g (atFilter e lc s)
    exact ⟨_, after, runs, ha, hr, fun _ _ => ⟨h.takenUntil, h.terminal, h.level, h.deferred, h.clear⟩,
      fun other => absurd hc (not_and_or.mpr other), same.lanes, same.unmarked_keepUp.trans (atFilter_unmarked e lc s),
      same.aisle.peers, same.aisle.shock⟩
  · rw [releaseHeard_refused there hc] at runs
    have queue := (keepUp_unmarked (refuseGateway (atFilter e lc s))).trans (atFilter_unmarked e lc s)
    exact ⟨_, gr, runs, there, rfl, fun ht hm => absurd ⟨ht, hm⟩ hc, fun _ => ⟨rfl, rfl⟩, rfl, queue, rfl, rfl⟩

end Sys2Proof.Machine
end


section
/-! PROOF. What every step keeps of the counts, of the Transmit Queue and of the Peer Stock Table, and that the reset state has it. -/

namespace Sys2Proof.Machine

/-! ## Steps -/

/-- What every part of a command keeps of a state, every step keeps; the waiting commands are no part of it. -/
theorem StepFrame.keeps {P : State → Prop} (F : StepFrame fun t s => P s → P t) (free : ∀ s p, P s → P { s with pending := p })
    {s t : State} (h : P s) (hs : step s = .next t) : P t := F.ofStep hs (free s _ h)

theorem seedFrom_kept {β : Type} (view : State → β) (hv : ∀ f s, view (s.updateStation f) = view s) (raw : Int) (s : State) :
    view (seedFrom raw s) = view s := by
  unfold seedFrom
  split
  · rfl
  · exact hv _ s

/-- What the deferral count and the beginning of a sending keep, the beginning of an attempt keeps. -/
theorem attemptBegins_keeps {P : State → Prop} (spend : ∀ s, P s → P s.spend) (deferral : ∀ s, P s → P (s.count .deferrals 1))
    (start : ∀ s e, bestEligible s.queue = some e → s.line.attempt = none → P s → P (startSending e s)) (s : State) (h : P s) :
    P (attemptBegins s) := by
  have counted : ∀ e s, P s → P (countDeferral e s) := fun e s h => by
    unfold countDeferral
    split
    · exact deferral s h
    · exact h
  have keeps : ∀ e (s : State), (countDeferral e s).queue = s.queue ∧ (countDeferral e s).line = s.line := fun e s => by
    unfold countDeferral
    split <;> exact ⟨rfl, rfl⟩
  unfold attemptBegins
  split
  · exact h
  · next e he =>
    split
    · next hm =>
      have ha : s.line.attempt = none := by
        simp only [mayBegin, awaitsGap, Bool.and_eq_true, Option.isNone_iff_eq_none] at hm
        exact hm.1.1.1.2
      unfold inEitherOrder
      split
      · obtain ⟨hq, hl⟩ := keeps e s.spend
        exact start _ e (by rw [hq]; exact he) (by rw [hl]; exact ha) (counted e _ (spend s h))
      · exact counted e _ (start s.spend e he ha (spend s h))
    · exact h

/-! ## The counts (R97, R98, R179) -/

theorem startSending_counters (e : Entry) (s : State) : (startSending e s).station.counters = s.station.counters := by
  unfold startSending
  dsimp only
  split <;> rfl

theorem countersBounded_zero {s : State} (h : s.station.counters = Counters.zero) : CountersBounded s := by
  unfold CountersBounded
  rw [h]
  decide

/-- Every part of a command keeps the diagnostic counters bounded (R179). -/
theorem countersBounded_steps : StepFrame fun t s => CountersBounded s → CountersBounded t where
  toBusFrame := countersBounded_bus
  control := fun f s hf h => by
    unfold CountersBounded
    rw [State.updateStation_station, hf]
    exact h
  lanes := fun _ _ h => h
  groups := fun _ _ h => h
  timers := fun _ _ _ h => h
  reset := fun _ _ _ => countersBounded_zero rfl
  time := fun _ _ h => h
  kept := fun _ h => h
  report := countersBounded_peers.takeReport
  aged := countersBounded_peers.ageEntry
  forgotten := countersBounded_peers.forgetEntry
  line := fun _ _ _ h => h
  tecUp := countersBounded_line.raiseTec
  tecDown := countersBounded_line.lowerTec
  recUp := countersBounded_line.raiseRec
  recDown := countersBounded_line.lowerRec
  second := fun expiry s _ => countersBounded_line.secondPasses expiry s
  begun := attemptBegins_keeps (fun _ h => h) (fun _ h => count_bounded _ _ h)
    fun s e _ _ h => by
      unfold CountersBounded
      rw [startSending_counters]
      exact h
  jam := fun _ _ _ h => h
  sent := fun s _ => countersBounded_line.frameIsSent (fun _ h => statusReduction_bounded h) s
  jamOver := fun ended s _ => countersBounded_line.jamEnds ended s
  abandoned := countersBounded_line.abandonAttempt
  passed := fun _ h => h
  expired := countersBounded_line.removeExpired

/-- A change of the state that keeps TEC, REC, the line state and the second timer keeps the counts sound. -/
theorem LineCountsSound.of_counts {s t : State} (h : LineCountsSound s) (ht : t.line.tecCount = s.line.tecCount)
    (hr : t.line.recCount = s.line.recCount) (hs : t.line.state = s.line.state)
    (h2 : t.line.secondTimer = s.line.secondTimer) : LineCountsSound t := by
  obtain ⟨hT, hR, hA, hL⟩ := h
  exact ⟨ht ▸ hT, hr ▸ hR, ht ▸ hr ▸ hs ▸ hA, hs ▸ h2 ▸ hL⟩

theorem LineCountsSound.of_line {s t : State} (h : LineCountsSound s) (k : t.line = s.line) : LineCountsSound t :=
  h.of_counts (by rw [k]) (by rw [k]) (by rw [k]) (by rw [k])

theorem secondPasses_sound {expiry : Time} {s : State} (h : LineCountsSound s) (hx : s.line.secondTimer = some expiry) :
    LineCountsSound (secondPasses expiry s) := by
  obtain ⟨ht, hr, ha, h2⟩ := h
  exact lowerTec_sound ⟨ht, hr, ha, fun _ => h2.mp (by rw [hx]; rfl), fun _ => rfl⟩

theorem statusReduction_counts (s : State) : (statusReduction s).line.tecCount = s.line.tecCount
    ∧ (statusReduction s).line.recCount = s.line.recCount ∧ (statusReduction s).line.state = s.line.state
    ∧ (statusReduction s).line.secondTimer = s.line.secondTimer := by
  unfold statusReduction
  split <;> exact ⟨rfl, rfl, rfl, rfl⟩

/-- The operations of the aisle and of the sensor bus keep the line's counts sound. -/
theorem lineCountsSound_bus : BusFrame fun t s => LineCountsSound s → LineCountsSound t where
  refl := fun _ h => h
  trans := fun h k x => h (k x)
  spend := fun _ h => h
  coalesced := fun _ _ _ h => h
  appended := fun _ _ _ _ h => h
  evicted := fun _ _ _ _ _ _ h => h
  withdrawn := fun _ _ h => h
  counted := fun _ _ _ h => h
  reportDue := fun _ _ _ h => h
  survey := fun _ h => h
  group := fun _ _ _ h => h
  lane := fun _ _ _ h => h
  allWeighing := fun _ _ h => h
  shock := fun _ _ h => h
  drifted := fun _ _ h => h
  engine := fun _ _ h => h
  latched := fun _ _ h => h
  seeded := fun raw s h => h.of_line (seedFrom_kept State.line (fun _ _ => rfl) raw s)

theorem lineCountsSound_peers : PeerFrame fun t s => LineCountsSound s → LineCountsSound t where
  toAisleFrame := lineCountsSound_bus.toAisleFrame
  peers := fun _ _ h => h

theorem lineCountsSound_free : FreeFrame fun t s => LineCountsSound s → LineCountsSound t where
  toAisleFrame := lineCountsSound_bus.toAisleFrame
  queue := fun _ _ h => h

theorem endAttempt_counts (lowEnd : Time) {s : State} (h : LineCountsSound s) : LineCountsSound (endAttempt lowEnd s) := h

/-- The ON LINE entry that leaves the queue keeps the line's counts sound, if its notice does. -/
theorem removeOnLine_counts {tell : State → State} (ht : ∀ s, LineCountsSound s → LineCountsSound (tell s)) {s : State}
    (h : LineCountsSound s) : LineCountsSound (removeOnLine tell s) :=
  lineCountsSound_free.eitherOrder (f := tell) ht lineCountsSound_free.announceRoom _ h

theorem tellSent_counts (b : Body) {s : State} (h : LineCountsSound s) : LineCountsSound (tellSent b s) := by
  cases b with
  | stock lane article pack count state confidence => exact h
  | survey pairs => exact h
  | disturb zone hold => exact h
  | raise group key mask level quality aggregate reorder => exact lineCountsSound_free.raiseSentOutcome group s h
  | clear group key mask => exact h
  | status =>
    obtain ⟨ht, hr, hs, h2⟩ := statusReduction_counts s
    exact h.of_counts ht hr hs h2

theorem tellDiscarded_counts (b : Body) {s : State} (h : LineCountsSound s) : LineCountsSound (tellDiscarded b s) := by
  cases b with
  | stock lane article pack count state confidence => exact lineCountsSound_free.laneReport lane s h
  | survey pairs => exact h
  | disturb zone hold => exact h
  | raise group key mask level quality aggregate reorder => exact lineCountsSound_free.raiseDiscardedOutcome group s h
  | clear group key mask => exact h
  | status => exact h

theorem countCollisions_line (n : Nat) (s : State) : (countCollisions n s).line = s.line := by
  unfold countCollisions
  split
  · rfl
  · split <;> rfl

theorem frameIsSent_counts {s : State} (h : LineCountsSound s) : LineCountsSound (frameIsSent s) := by
  unfold frameIsSent
  dsimp only
  split
  · exact endAttempt_counts _ (lowerTec_sound h)
  · exact removeOnLine_counts (fun _ => tellSent_counts _)
      (endAttempt_counts _ ((lowerTec_sound h).of_line (countCollisions_line _ _)))

theorem jamEnds_counts (ended : Time) {s : State} (h : LineCountsSound s) : LineCountsSound (jamEnds ended s) := by
  unfold jamEnds
  split
  · exact endAttempt_counts _ h
  · split
    · exact lineCountsSound_free.returnEntry _ _ (endAttempt_counts _ h)
    · exact lineCountsSound_free.eitherOrder (f := raiseTec) (fun _ => raiseTec_sound)
        (fun _ => removeOnLine_counts fun _ => tellDiscarded_counts _) _ (endAttempt_counts _ h)

theorem abandonAttempt_counts {s : State} (h : LineCountsSound s) : LineCountsSound (abandonAttempt s) := by
  unfold abandonAttempt
  split
  · exact h
  · split
    · exact lineCountsSound_free.returnEntry _ _ (endAttempt_counts _ h)
    · exact jamEnds_counts _ h

/-- Every part of a command keeps the line's counts sound (R97, R98). -/
theorem lineCountsSound_steps : StepFrame fun t s => LineCountsSound s → LineCountsSound t where
  toBusFrame := lineCountsSound_bus
  control := fun _ _ _ h => h
  lanes := fun _ _ h => h
  groups := fun _ _ h => h
  timers := fun _ _ _ h => h
  reset := fun _ _ _ => ⟨Nat.zero_le _, Nat.zero_le _, fun _ => ⟨Nat.zero_lt_succ _, Nat.zero_lt_succ _⟩, by simp [resetPart, State.afterReset, LineController.reset]⟩
  time := fun _ _ h => h
  kept := fun _ h => h
  report := lineCountsSound_peers.takeReport
  aged := lineCountsSound_peers.ageEntry
  forgotten := lineCountsSound_peers.forgetEntry
  line := fun f s hf h => by
    obtain ⟨ht, hr, hs, h2, -⟩ := hf s.line
    exact h.of_counts ht hr hs h2
  tecUp := fun _ => raiseTec_sound
  tecDown := fun _ => lowerTec_sound
  recUp := fun _ => raiseRec_sound
  recDown := fun _ => lowerRec_sound
  second := fun _ _ hx h => secondPasses_sound h hx
  begun := attemptBegins_keeps (fun _ h => h) (fun _ h => h) fun _ _ _ _ h => h
  jam := fun _ _ _ h => h
  sent := fun _ _ => frameIsSent_counts
  jamOver := fun ended _ _ => jamEnds_counts ended
  abandoned := fun _ => abandonAttempt_counts
  passed := fun _ h => h
  expired := lineCountsSound_free.removeExpired

/-- Settles O55: each half by what the parts of the commands keep. -/
theorem stepKeepsTheCountsSound : Obligations.StepKeepsTheCountsSound := fun _ _ hc hl hs =>
  ⟨countersBounded_steps.keeps (fun _ _ h => h) hc hs, lineCountsSound_steps.keeps (fun _ _ h => h) hl hs⟩

/-! ## The Transmit Queue (7.1, R107) -/

theorem QueueShape.nil : QueueShape 0 [] := ⟨Nat.zero_le _, List.nodup_nil, rfl⟩

theorem QueueSound.of_shape {s t : State} (h : QueueSound s) (ha : t.line.attempt = s.line.attempt)
    (k : ∀ n, QueueShape n s.queue → QueueShape n t.queue) : QueueSound t := by
  rw [queueSound_iff] at h ⊢
  rw [ha]
  exact k _ h

/-- A queue without an entry ON LINE is sound while no attempt is in progress. -/
theorem QueueSound.of_none {s : State} (ha : s.line.attempt = none) (h : QueueShape 0 s.queue) : QueueSound s := by
  rw [queueSound_iff, ha]
  exact h

theorem QueueSound.shape {s : State} (h : QueueSound s) {n : Nat} (hn : (if s.line.attempt.isSome then 1 else 0) = n) :
    QueueShape n s.queue := by
  rw [queueSound_iff, hn] at h
  exact h

theorem queueSound_bus : BusFrame fun t s => QueueSound s → QueueSound t := by
  have both {t s : State} (k : ∀ n, QueueShape n s.queue → QueueShape n t.queue) (hl : t.line = s.line) (h : QueueSound s) :
      QueueSound t := h.of_shape (by rw [hl]) k
  exact {
    refl := fun _ h => h
    trans := fun h k x => h (k x)
    spend := fun _ h => h
    coalesced := fun b s hb => both (queueShape_bus.coalesced b s hb) rfl
    appended := fun b s hb hl => both (queueShape_bus.appended b s hb hl) rfl
    evicted := fun b v rest s hb hv => both (queueShape_bus.evicted b v rest s hb hv) rfl
    withdrawn := fun g s => both (queueShape_bus.withdrawn g s) rfl
    counted := fun _ _ _ h => h
    reportDue := fun _ _ _ h => h
    survey := fun _ h => h
    group := fun _ _ _ h => h
    lane := fun _ _ _ h => h
    allWeighing := fun _ _ h => h
    shock := fun _ _ h => h
    drifted := fun _ _ h => h
    engine := fun _ _ h => h
    latched := fun _ _ h => h
    seeded := fun raw s => both (queueShape_bus.seeded raw s) (linesKept.seeded raw s) }

theorem checkLineState_attempt (s : State) : (checkLineState s).line.attempt = s.line.attempt := by
  rw [checkLineState_line, LineController.checked_attempt]

/-- A check of the counts after a change of the Line Controller that keeps its attempt. -/
theorem checkLineState_queueSound {s : State} {f : LineController → LineController}
    (hf : (f s.line).attempt = s.line.attempt) (h : QueueSound s) : QueueSound (checkLineState (s.updateLine f)) :=
  h.of_shape ((checkLineState_attempt _).trans hf) fun _ k => checkLineState_shape (s := s.updateLine f) k

theorem tellDiscarded_shape (b : Body) (s : State) (n : Nat) (h : QueueShape n s.queue) :
    QueueShape n (tellDiscarded b s).queue := by
  cases b with
  | stock lane article pack count state confidence => exact queueShape_aisle.laneReport lane s n h
  | survey pairs => exact h
  | disturb zone hold => exact h
  | raise group key mask level quality aggregate reorder => exact queueShape_aisle.raiseDiscardedOutcome group s n h
  | clear group key mask => exact h
  | status => exact h

theorem statusReduction_queue (s : State) : (statusReduction s).queue = s.queue := by
  unfold statusReduction
  split <;> rfl

theorem tellSent_shape (b : Body) (s : State) (n : Nat) (h : QueueShape n s.queue) : QueueShape n (tellSent b s).queue := by
  cases b with
  | stock lane article pack count state confidence => exact h
  | survey pairs => exact h
  | disturb zone hold => exact h
  | raise group key mask level quality aggregate reorder => exact queueShape_aisle.raiseSentOutcome group s n h
  | clear group key mask => exact h
  | status =>
    change QueueShape n (statusReduction s).queue
    rw [statusReduction_queue]
    exact h

/-- No attempt is in progress in the state after, if there was none in the state before. -/
def NoAttempt (t s : State) : Prop := s.line.attempt = none → t.line.attempt = none

theorem noAttempt_line : FreeFrame NoAttempt := by
  have same {t s : State} (h : t.line = s.line) : NoAttempt t s := fun k => by rw [h]; exact k
  exact {
    refl := fun _ h => h
    trans := fun h k x => h (k x)
    spend := fun _ => same rfl
    coalesced := fun _ _ _ => same rfl
    appended := fun _ _ _ _ => same rfl
    evicted := fun _ _ _ _ _ _ => same rfl
    withdrawn := fun _ _ => same rfl
    counted := fun _ _ _ => same rfl
    reportDue := fun _ _ _ => same rfl
    survey := fun _ => same rfl
    group := fun _ _ _ => same rfl
    queue := fun _ _ => same rfl }

theorem tellSent_noAttempt (b : Body) (s : State) : NoAttempt (tellSent b s) s := by
  cases b with
  | stock lane article pack count state confidence => exact fun h => h
  | survey pairs => exact fun h => h
  | disturb zone hold => exact fun h => h
  | raise group key mask level quality aggregate reorder => exact noAttempt_line.raiseSentOutcome group s
  | clear group key mask => exact fun h => h
  | status =>
    change NoAttempt (statusReduction s) s
    unfold statusReduction
    split <;> exact fun h => h

theorem tellDiscarded_noAttempt (b : Body) (s : State) : NoAttempt (tellDiscarded b s) s := by
  cases b with
  | stock lane article pack count state confidence => exact noAttempt_line.laneReport lane s
  | survey pairs => exact fun h => h
  | disturb zone hold => exact fun h => h
  | raise group key mask level quality aggregate reorder => exact noAttempt_line.raiseDiscardedOutcome group s
  | clear group key mask => exact fun h => h
  | status => exact fun h => h

theorem removeOnLine_noAttempt {tell : State → State} (ht : ∀ s, NoAttempt (tell s) s) (s : State) :
    NoAttempt (removeOnLine tell s) s :=
  noAttempt_line.trans (noAttempt_line.eitherOrder ht noAttempt_line.announceRoom _) (noAttempt_line.queue _ s)

theorem raiseTec_noAttempt (s : State) : NoAttempt (raiseTec s) s := fun h => (checkLineState_attempt _).trans h

/-- A frame that was sent leaves a sound queue behind. -/
theorem frameIsSent_queueSound {s : State} (ha : s.line.attempt.isSome = true) (h : QueueSound s) : QueueSound (frameIsSent s) := by
  have shape : QueueShape 1 (lowerTec s).queue := checkLineState_shape (h.shape (by simp [ha]))
  unfold frameIsSent
  dsimp only
  split
  · next ho => exact absurd (shape.zero_of_onLineEntry ho) (by decide)
  · refine QueueSound.of_none (removeOnLine_noAttempt (tellSent_noAttempt _) _ rfl) (removeOnLine_shape (tellSent_shape _) (n := 1) ?_)
    unfold countCollisions
    split
    · exact shape
    · split <;> exact shape

/-- A jam that ends leaves a sound queue behind, with the entry backing off or discarded. -/
theorem jamEnds_queueSound (ended : Time) {s : State} (ha : s.line.attempt.isSome = true) (h : QueueSound s) :
    QueueSound (jamEnds ended s) := by
  have shape : QueueShape 1 s.queue := h.shape (by simp [ha])
  unfold jamEnds
  split
  · next ho => exact absurd (shape.zero_of_onLineEntry ho) (by decide)
  · next e _ =>
    split
    · refine QueueSound.of_none (noAttempt_line.returnEntry _ _ rfl) (returnEntry_shape ?_ shape)
      exact fun _ => rfl
    · refine QueueSound.of_none
        (noAttempt_line.eitherOrder raiseTec_noAttempt (removeOnLine_noAttempt (tellDiscarded_noAttempt e.body)) _ rfl) ?_
      unfold discardEntry inEitherOrder
      split
      · exact removeOnLine_shape (tellDiscarded_shape e.body) (n := 1) (checkLineState_shape shape)
      · exact checkLineState_shape (removeOnLine_shape (tellDiscarded_shape e.body) (n := 1) shape)

theorem abandonAttempt_queueSound {s : State} (h : QueueSound s) : QueueSound (abandonAttempt s) := by
  unfold abandonAttempt
  split
  · exact h
  · next a ha =>
    split
    · exact QueueSound.of_none (noAttempt_line.returnEntry _ _ rfl) (returnEntry_shape (fun _ => rfl) (h.shape (by simp [ha])))
    · exact jamEnds_queueSound _ (by simp [ha]) h

theorem startSending_queueSound {e : Entry} {s : State} (he : bestEligible s.queue = some e) (ha : s.line.attempt = none)
    (h : QueueSound s) : QueueSound (startSending e s) := (h.shape (by simp [ha])).putOnLine he

theorem removeExpired_shape {n : Nat} {s : State} (h : QueueShape n s.queue) : QueueShape n (removeExpired s).queue := by
  unfold removeExpired
  dsimp only
  split
  · refine queueShape_aisle.announceRoom _ n (h.filtered fun e he => ?_)
    simp only [Bool.not_eq_false', Bool.and_eq_true] at he
    exact he.1
  · exact h

/-- Every part of a command keeps the Transmit Queue sound. -/
theorem queueSound_steps : StepFrame fun t s => QueueSound s → QueueSound t where
  toBusFrame := queueSound_bus
  control := fun _ _ _ h => h
  lanes := fun _ _ h => h
  groups := fun _ _ h => h
  timers := fun _ _ _ h => h
  reset := fun _ _ _ => QueueSound.of_none rfl QueueShape.nil
  time := fun e s h => h.of_shape rfl fun n k => by
    unfold passTime
    dsimp only
    split
    · exact k.busySeen _
    · exact k
  kept := fun s h => h.of_shape rfl fun n k => by
    unfold keepUp
    dsimp only
    split
    · exact k.busySeen _
    · exact k
  report := fun e s => by
    have F : PeerFrame fun t s => QueueSound s → QueueSound t := ⟨queueSound_bus.toAisleFrame, fun _ _ h => h⟩
    exact F.takeReport e s
  aged := fun sender lane s => by
    have F : PeerFrame fun t s => QueueSound s → QueueSound t := ⟨queueSound_bus.toAisleFrame, fun _ _ h => h⟩
    exact F.ageEntry sender lane s
  forgotten := fun sender lane s => by
    have F : PeerFrame fun t s => QueueSound s → QueueSound t := ⟨queueSound_bus.toAisleFrame, fun _ _ h => h⟩
    exact F.forgetEntry sender lane s
  line := fun f s hf h => by
    obtain ⟨-, -, -, -, ha⟩ := hf s.line
    exact h.of_shape ha fun _ k => k
  tecUp := fun _ => checkLineState_queueSound rfl
  tecDown := fun _ => checkLineState_queueSound rfl
  recUp := fun _ => checkLineState_queueSound rfl
  recDown := fun _ => checkLineState_queueSound rfl
  second := fun expiry s _ h => checkLineState_queueSound (s := s.updateLine fun lc => { lc with secondTimer := some (expiry.addMs 1000) }) rfl h
  begun := attemptBegins_keeps (fun _ h => h) (fun _ h => h)
    fun _ _ he ha => startSending_queueSound he ha
  jam := fun a s ha h => by
    rw [queueSound_iff] at h ⊢
    rw [ha] at h
    exact h
  sent := fun _ => frameIsSent_queueSound
  jamOver := fun ended _ => jamEnds_queueSound ended
  abandoned := fun _ => abandonAttempt_queueSound
  passed := fun s h => h.of_shape rfl fun _ k => k.map (fun e => by split <;> rfl) (fun e => by split <;> rfl)
  expired := fun s h => h.of_shape (congrArg LineController.attempt (removeExpired_agrees s).aisle.line) fun _ => removeExpired_shape

/-- Settles O56. -/
theorem stepKeepsTheQueueSound : Obligations.StepKeepsTheQueueSound := fun _ _ =>
  queueSound_steps.keeps fun _ _ h => h

/-! ## The Peer Stock Table (8.1, R117) -/

/-- Every part of a command keeps the Peer Stock Table sound: only the reports, the ages and a reset change it. -/
theorem peersSound_steps : StepFrame fun t s => PeersSound s → PeersSound t where
  refl := fun _ h => h
  trans := fun h k x => h (k x)
  spend := fun _ h => h
  coalesced := fun _ _ _ h => h
  appended := fun _ _ _ _ h => h
  evicted := fun _ _ _ _ _ _ h => h
  withdrawn := fun _ _ h => h
  counted := fun _ _ _ h => h
  reportDue := fun _ _ _ h => h
  survey := fun _ h => h
  group := fun _ _ _ h => h
  lane := fun _ _ _ h => h
  allWeighing := fun _ _ h => h
  shock := fun _ _ h => h
  drifted := fun _ _ h => h
  engine := fun _ _ h => h
  latched := fun _ _ h => h
  seeded := fun raw s h => h.of (peersKept.seeded raw s)
  control := fun _ _ _ h => h
  lanes := fun _ _ h => h
  groups := fun _ _ h => h
  timers := fun _ _ _ h => h
  reset := fun _ _ _ => ⟨Nat.zero_le _, List.Pairwise.nil⟩
  time := fun _ _ h => h
  kept := fun _ h => h
  report := fun e _ => takeReport_sound e
  aged := fun sender lane _ => ageEntry_sound sender lane
  forgotten := fun sender lane _ => forgetEntry_sound sender lane
  line := fun _ _ _ h => h
  tecUp := fun s h => h.of (peersKeptByLine.raiseTec s)
  tecDown := fun s h => h.of (peersKeptByLine.lowerTec s)
  recUp := fun s h => h.of (peersKeptByLine.raiseRec s)
  recDown := fun s h => h.of (peersKeptByLine.lowerRec s)
  second := fun expiry s _ h => h.of (peersKeptByLine.secondPasses expiry s)
  begun := attemptBegins_keeps (fun _ h => h) (fun _ h => h) fun s e _ _ h => h.of <| by
    unfold startSending
    dsimp only
    split <;> rfl
  jam := fun _ _ _ h => h
  sent := fun s _ h => h.of <| peersKeptByLine.frameIsSent (fun s => by unfold statusReduction; split <;> rfl) s
  jamOver := fun ended s _ h => h.of (peersKeptByLine.jamEnds ended s)
  abandoned := fun s h => h.of (peersKeptByLine.abandonAttempt s)
  passed := fun _ h => h
  expired := fun s h => h.of (peersKeptByLine.removeExpired s)

/-- Settles O57. -/
theorem stepKeepsThePeersSound : Obligations.StepKeepsThePeersSound := fun _ _ =>
  peersSound_steps.keeps fun _ _ h => h

end Sys2Proof.Machine
end


section
/-! PROOF. What the reset state and the end of a reset are, and what every command does with its operands. -/

namespace Sys2Proof.Machine

/-! ## The reset state (R35, R54, R81, R178) -/

theorem afterReset_lane (cause : ResetCause) (good : Bool) (buttons : Four Bool) (choices : Nat) (pending : List Instr) (l : LaneNo) :
    (State.afterReset cause good buttons choices pending).lane l = Lane.reset (buttons.get l) :=
  Four.get_map Lane.reset buttons l

theorem afterReset_group (cause : ResetCause) (good : Bool) (buttons : Four Bool) (choices : Nat) (pending : List Instr) (g : GroupNo) :
    (State.afterReset cause good buttons choices pending).group g = none := Four.get_all none g

theorem reset_lane (l : LaneNo) : State.reset.lane l = Lane.reset false := by
  rw [State.reset, afterReset_lane, Four.get_all]

theorem reset_group (g : GroupNo) : State.reset.group g = none := afterReset_group _ _ _ _ _ g

theorem reset_unloaded : Unloaded State.reset := fun l => by
  rw [reset_lane, reset_group]
  exact ⟨rfl, rfl, rfl, rfl⟩

theorem reset_startUpSound : StartUpSound State.reset :=
  ⟨by decide, fun _ => reset_unloaded, fun _ h => (nomatch h), by decide, by decide, by decide, by decide, by decide⟩

theorem reset_laneRecordsSound : LaneRecordsSound State.reset := fun l => by
  rw [reset_lane]
  exact ⟨by decide, Nat.zero_le _⟩

/-- Settles O60. -/
theorem resetIsSound : Obligations.ResetIsSound :=
  ⟨countersBounded_zero rfl, ⟨by decide, by decide, by decide, by decide⟩, QueueSound.of_none rfl QueueShape.nil,
    ⟨by decide, List.Pairwise.nil⟩, reset_startUpSound, reset_laneRecordsSound, fun h => absurd rfl h,
    fun g gr h => (nomatch (reset_group g).symm.trans h), fun _ h => (nomatch h)⟩

/-- Settles O3. -/
theorem resetLeavesEveryBlockAtItsValues : Obligations.ResetLeavesEveryBlockAtItsValues := by
  intro cause good buttons choices pending s
  have lanes (l : LaneNo) : s.lane l = Lane.reset (buttons.get l) := afterReset_lane cause good buttons choices pending l
  refine ⟨fun c => Eight.get_all Channel.reset c, rfl, rfl, rfl, fun l => ?_, rfl, rfl, rfl, rfl, rfl, rfl, rfl, rfl, rfl,
    fun _ h => (nomatch h), rfl, rfl, rfl, fun g => Four.get_all none g, rfl, rfl, rfl, rfl, rfl, rfl, rfl, rfl, rfl, rfl, rfl⟩
  rw [lanes]
  exact ⟨rfl, rfl, rfl, rfl, rfl, rfl, rfl, rfl, rfl, rfl, rfl, rfl, rfl⟩

/-! ## Steps and operands (95) -/

/-- Settles O1. -/
theorem stepRunsTheFrontCommand : Obligations.StepRunsTheFrontCommand := fun _ _ _ => rfl

theorem checked_of_true {ok : Bool} (h : ok = true) (t : State) : checked ok t = .next t := if_pos h

theorem checked_of_false {ok : Bool} (h : ok = false) (t : State) : checked ok t = .fault .malformedCommand := by
  rw [h]
  rfl

/-- A command answers with a next state where its operands are ones of its row, and with the fault otherwise: its meaning checks just the
operands that `Instr.wf` names. -/
theorem exec_answers (i : Instr) (s : State) : ∃ t, exec i s = checked i.wf t := by
  cases i <;> exact ⟨_, rfl⟩

/-- Settles O2. -/
theorem everyWellFormedCommandAnswers : Obligations.EveryWellFormedCommandAnswers := by
  refine ⟨fun s h => by rw [step, h], fun i s h => ?_, fun i s h => ?_⟩
  · obtain ⟨t, ht⟩ := exec_answers i s
    exact ⟨t, ht.trans (checked_of_true h t)⟩
  · obtain ⟨t, ht⟩ := exec_answers i s
    exact ht.trans (checked_of_false h t)

/-! ## Resets (R169, R178) -/

/-- What the end of RESET leaves (R169, R170, R177). -/
theorem resetEnds_valid {straps : BitVec 6} (h : validNumber straps = true) (s : State) :
    resetEnds straps s = { s with station := { s.station with
      clock := Time.zero
      number := straps
      seed := ⟨straps, none⟩
      brownOut := if s.station.supplyGood then .none else .low
      phase := .warmUp
      warmUpTimer := if s.station.supplyGood then some ⟨500, 0⟩ else s.station.warmUpTimer } } := by
  unfold resetEnds
  dsimp only
  rw [if_pos h]
  cases hg : s.station.supplyGood <;>
    simp [State.inBrownOut, State.updateStation, startWarmUp, hg, State.now, Time.addMs, Time.zero, warmUpMs]

theorem resetEnds_invalid {straps : BitVec 6} (h : validNumber straps = false) (s : State) :
    resetEnds straps s = { s with
      station := { s.station with
        clock := Time.zero
        number := straps
        seed := ⟨straps, none⟩
        brownOut := if s.station.supplyGood then .none else .low
        phase := .configFault
        warmUpTimer := none }
      engine := { s.engine with transaction := none }
      lanes := s.lanes.map fun lane => { lane with service := { lane.service with faultBeatOrigin := Time.zero } } } := by
  unfold resetEnds
  dsimp only
  rw [if_neg (by rw [h]; exact Bool.false_ne_true)]
  rfl

theorem validNumber_iff (n : BitVec 6) : validNumber n = true ↔ 1 ≤ n.toNat ∧ n.toNat ≤ 60 := by
  simp [validNumber]

/-- Settles O5, by whether the strapped number is valid. -/
theorem resetEndReadsTheStraps : Obligations.ResetEndReadsTheStraps := by
  intro straps s hs
  refine ⟨resetEnds straps s, congrArg _ (if_pos hs), ?_⟩
  cases h : validNumber straps with
  | true =>
    have hv := (validNumber_iff straps).mp h
    rw [resetEnds_valid h]
    exact ⟨rfl, rfl, rfl, rfl, rfl, fun _ => ⟨rfl, fun hg => if_pos hg, rfl, rfl⟩, fun hn => by omega, rfl, rfl, rfl, rfl, rfl⟩
  | false =>
    have hv : ¬ (1 ≤ straps.toNat ∧ straps.toNat ≤ 60) := by rw [← validNumber_iff, h]; exact Bool.false_ne_true
    rw [resetEnds_invalid h]
    refine ⟨rfl, rfl, rfl, rfl, rfl, fun hn => absurd hn hv, fun _ => ⟨rfl, rfl, fun l => ?_⟩, rfl, rfl, rfl, rfl, rfl⟩
    simp [State.lane]

theorem filterRestart_own {sender : Nat} (h61 : 61 ≤ sender) (h63 : sender ≤ 63) (s : State) :
    filterRestart sender s.number s = resetPart .restart s := by
  unfold filterRestart fromGateway
  rw [if_pos (by simp [isGateway, h61, h63])]
  exact if_pos rfl

/-- A RESTART for the own number that arrives from a gateway resets the part, and the reset ends in the same event. -/
theorem exec_restart_own {e sender : Nat} {chars : List Byte} {s : State} (straps : BitVec 6)
    (h : Arrives sender (.restart s.number) chars s) (h61 : 61 ≤ sender) (h63 : sender ≤ 63) :
    exec (.restart e ⟨chars, straps⟩) s = .next (keepUp (resetEnds straps (resetPart .restart s))) := by
  obtain ⟨awake, ⟨received, stopEnd, receiving⟩, judged, valid, ne0, own, sound⟩ := h
  obtain ⟨lc, hlc⟩ := lowerRec_received sound e chars
  have reaches : frameReceived chars (passTime e s) = resetPart .restart s := by
    unfold frameReceived
    rw [passTime_line, receiving, judged]
    change filterFrame sender (.restart s.number) (lowerRec (waitIdle (heardFrame chars (passTime e s)))) = _
    rw [hlc, filterFrame_of_ne (s := atFilter e lc s) valid ne0 own]
    exact filterRestart_own (s := atFilter e lc s) h61 h63
  change checked _ (timed e _ s) = _
  rw [checked_of_true (by unfold goodOk; rw [judged]; rfl), timed_awake awake]
  dsimp only
  rw [reaches]
  rfl

/-- The rest that follows an event changes nothing in a state with an empty queue and no stuck measurement. -/
theorem keepUp_of_empty {s : State} (hq : s.queue = []) (hl : s.line.stuckSince = none) : keepUp s = s := by
  have hc : s.stuckConditions = false := by simp [State.stuckConditions, hq]
  unfold keepUp
  rw [hc, hq]
  cases s with
  | mk st en la sh li qu pe gr rt ra ch pd =>
    cases li
    simp_all [markBusySeen]

/-- The end of RESET leaves the queue empty and the stuck measurement stopped. -/
theorem resetEnds_queue (straps : BitVec 6) (s : State) : (resetEnds straps s).queue = s.queue ∧ (resetEnds straps s).line = s.line := by
  cases h : validNumber straps with
  | true => rw [resetEnds_valid h]; exact ⟨rfl, rfl⟩
  | false => rw [resetEnds_invalid h]; exact ⟨rfl, rfl⟩

/-- What the end of a RESTART's reset leaves in every block (R169, R170, R178). -/
theorem resetEnds_afterReset (straps : BitVec 6) (good : Bool) (buttons : Four Bool) (choices : Nat) (pending : List Instr) :
    let s := State.afterReset .restart good buttons choices pending
    let t := resetEnds straps s
    t.station.phase = (if validNumber straps then .warmUp else .configFault)
      ∧ t.station.number = straps ∧ t.station.resetCause = .restart ∧ t.station.clock = Time.zero
      ∧ t.station.brownOut = (if good then .none else .low)
      ∧ t.station.warmUpTimer = (if validNumber straps && good then some ⟨500, 0⟩ else none)
      ∧ t.station.config = none ∧ t.station.counters = Counters.zero ∧ t.station.flags = Flags.clear
      ∧ t.engine = s.engine ∧ t.line = s.line ∧ t.shock = s.shock
      ∧ t.queue = [] ∧ t.peers = [] ∧ (∀ g, t.group g = none) ∧ t.reportTimer = none ∧ t.rateTick = none
      ∧ ∀ l, (t.lane l).service.state = .off ∧ (t.lane l).counter = (s.lane l).counter
        ∧ (t.lane l).weighing = (s.lane l).weighing := by
  intro s t
  have off (l : LaneNo) : (s.lane l).service.state = .off := by rw [afterReset_lane]; rfl
  cases h : validNumber straps with
  | true =>
    have ht : t = _ := resetEnds_valid h s
    rw [ht]
    exact ⟨rfl, rfl, rfl, rfl, rfl, rfl, rfl, rfl, rfl, rfl, rfl, rfl, rfl, rfl, fun g => Four.get_all none g, rfl, rfl,
      fun l => ⟨off l, rfl, rfl⟩⟩
  | false =>
    have ht : t = _ := resetEnds_invalid h s
    rw [ht]
    refine ⟨rfl, rfl, rfl, rfl, rfl, rfl, rfl, rfl, rfl, rfl, rfl, rfl, rfl, rfl, fun g => Four.get_all none g, rfl, rfl,
      fun l => ?_⟩
    simp only [State.lane, Four.get_map]
    exact ⟨off l, trivial, trivial⟩

/-- Settles O4: a RESTART's event and the end of a RESET after it end in the same state. -/
theorem resetsEndInTheResetState : Obligations.ResetsEndInTheResetState := by
  intro s buttons
  refine ⟨rfl, fun awake => congrArg _ (if_neg awake), fun hr => congrArg _ (if_pos hr), fun e sender chars straps h h61 h63 => ?_⟩
  obtain ⟨hq, hl⟩ := resetEnds_queue straps (resetPart .restart s)
  refine ⟨resetEnds straps (resetPart .restart s), ?_, rfl, resetEnds_afterReset straps _ _ _ _⟩
  rw [exec_restart_own straps h h61 h63, keepUp_of_empty hq (by rw [hl]; rfl)]

end Sys2Proof.Machine
end


section
/-! PROOF. What every step keeps of the phases and of one more block: a predicate that implies the soundness of the phases and that the
parts of the commands keep is kept by every step. -/

namespace Sys2Proof.Machine

/-! ## The phases and a lane -/

/-- The phases' timers, the configuration read and the groups stand with the phase (11.1, R131, R170, R174 to R176). -/
structure PhasesSound (s : State) : Prop where
  configured : s.station.config.isSome = true ↔ s.station.phase = .joining ∨ s.station.phase = .running
  reading : ∀ stage, s.engine.transaction = some ⟨.configRead, stage⟩ → s.station.phase = .loading
  warming : s.station.warmUpTimer.isSome = true → s.station.phase = .warmUp
  joins : s.station.joinTimer.isSome = true ↔ s.station.phase = .joining
  ticks : s.engine.roundTimer.isSome = true ↔ s.station.config.isSome = true
  reports : s.reportTimer.isSome = true ↔ s.station.phase = .running
  rates : s.rateTick.isSome = true ↔ s.station.phase = .running
  ungrouped : s.station.config = none → ∀ g, s.group g = none

/-- A change that leaves Station Control, the engine, the two timers and the groups leaves the phases sound. -/
theorem PhasesSound.of_eq {s t : State} (h : PhasesSound s) (hs : t.station = s.station) (he : t.engine = s.engine)
    (hr : t.reportTimer = s.reportTimer) (hk : t.rateTick = s.rateTick) (hg : t.groups = s.groups) : PhasesSound t where
  configured := by rw [hs]; exact h.configured
  reading := by rw [hs, he]; exact h.reading
  warming := by rw [hs]; exact h.warming
  joins := by rw [hs]; exact h.joins
  ticks := by rw [hs, he]; exact h.ticks
  reports := by rw [hs, hr]; exact h.reports
  rates := by rw [hs, hk]; exact h.rates
  ungrouped := by unfold State.group; rw [hs, hg]; exact h.ungrouped

/-- A lane with these settings, of a station that has its configuration or not, in a holdoff or not (R30, R35, R43, R50, R54, R58). -/
structure Lane.SoundFor (c : LaneSettings) (loaded heldOff : Bool) (lane : Lane) : Prop where
  holds : lane.service.holdTimer.isSome = true ↔ lane.service.state = .held
  offset : lane.counter.offset.natAbs ≤ c.zeroLimit
  unloaded : loaded = false → lane.service.state = .off ∧ lane.service.holdTimer = none ∧ lane.counter = Counter.reset
  moving : heldOff = true → lane.weighing.motion = .moving

/-- A lane that could stand as lane `l` of the state. -/
def Lane.SoundIn (s : State) (l : LaneNo) (lane : Lane) : Prop :=
  lane.SoundFor (s.laneSettings l) s.station.config.isSome s.shock.holdoff.isSome

/-- A change of a lane that leaves the settling, the offset, the hold timer, the state and the count keeps it sound. -/
theorem Lane.SoundFor.of_eq {c : LaneSettings} {loaded heldOff : Bool} {a b : Lane} (h : a.SoundFor c loaded heldOff)
    (hs : b.service.state = a.service.state) (hh : b.service.holdTimer = a.service.holdTimer) (hc : b.counter = a.counter)
    (hm : heldOff = true → a.weighing.motion = .moving → b.weighing.motion = .moving) : b.SoundFor c loaded heldOff where
  holds := by rw [hs, hh]; exact h.holds
  offset := by rw [hc]; exact h.offset
  unloaded := by rw [hs, hh, hc]; exact h.unloaded
  moving := fun k => hm k (h.moving k)

/-- A lane that is not OFF has a configuration. -/
theorem Lane.SoundFor.loaded_of {c : LaneSettings} {loaded heldOff : Bool} {lane : Lane} (h : lane.SoundFor c loaded heldOff)
    (hs : lane.service.state ≠ .off) : loaded = true := by
  cases loaded with
  | true => rfl
  | false => exact absurd (h.unloaded rfl).1 hs

/-- A lane with a configuration that changes its state keeps sound with the hold timer that the new state has. -/
theorem Lane.SoundFor.moves {c : LaneSettings} {loaded heldOff : Bool} {a b : Lane} (h : a.SoundFor c loaded heldOff)
    (hs : a.service.state ≠ .off) (hh : b.service.holdTimer.isSome = true ↔ b.service.state = .held)
    (hc : b.counter.offset.natAbs ≤ c.zeroLimit) (hm : a.weighing.motion = .moving → b.weighing.motion = .moving) :
    b.SoundFor c loaded heldOff where
  holds := hh
  offset := hc
  unloaded := fun k => absurd (h.loaded_of hs) (by rw [k]; exact Bool.false_ne_true)
  moving := fun k => hm (h.moving k)

theorem Lane.SoundFor.faults {c : LaneSettings} {loaded heldOff : Bool} {a : Lane} (h : a.SoundFor c loaded heldOff)
    (hs : a.service.state ≠ .off) (now : Time) : (a.enterFault now).SoundFor c loaded heldOff :=
  h.moves hs (by simp [Lane.enterFault]) h.offset fun _ => rfl

theorem Lane.SoundFor.resumes {c : LaneSettings} {loaded heldOff : Bool} {a : Lane} (h : a.SoundFor c loaded heldOff)
    (hs : a.service.state ≠ .off) (now : Time) : (a.enterResuming now).SoundFor c loaded heldOff :=
  h.moves hs (by simp [Lane.enterResuming]) h.offset fun _ => rfl

theorem Lane.SoundFor.isHeld {c : LaneSettings} {loaded heldOff : Bool} {a : Lane} (h : a.SoundFor c loaded heldOff)
    (hs : a.service.state ≠ .off) (now : Time) (limit : Nat) : (a.enterHeld now limit).SoundFor c loaded heldOff :=
  h.moves hs (by simp [Lane.enterHeld]) h.offset id

/-- The offset stays within the zero limit when a settlement is taken up (R43). -/
theorem settlement_offset {c : LaneSettings} {before : Counter} (h : before.offset.natAbs ≤ c.zeroLimit) (level : Int) (isOver : Bool) :
    (settlement c before level isOver).counter.offset.natAbs ≤ c.zeroLimit := by
  unfold settlement
  dsimp only
  split
  · exact h
  · split
    · exact h
    · unfold countedSettlement
      dsimp only
      split
      · split
        · next hz => exact hz
        · exact h
      · exact h

theorem Lane.SoundFor.settles {c : LaneSettings} {loaded heldOff : Bool} {a : Lane} (h : a.SoundFor c loaded heldOff)
    (hs : a.service.state.takesUp = true) (level : Int) (isOver : Bool) :
    Lane.SoundFor c loaded heldOff { a with
      counter := (settlement c a.counter level isOver).counter
      service := { a.service with state := a.service.state.afterSettlement } } := by
  refine h.moves (by rintro k; rw [k] at hs; cases hs) ?_ (settlement_offset h.offset level isOver) id
  have holds := h.holds
  dsimp only
  cases k : a.service.state <;> simp_all [LaneState.takesUp, LaneState.afterSettlement]

/-- The re-zero allowed leaves an offset within the zero limit (R50). -/
theorem reZeroAllowed_le {c : LaneSettings} {lane : Lane} {offset : Int} (h : reZeroAllowed c lane = some offset) :
    offset.natAbs ≤ c.zeroLimit := by
  unfold reZeroAllowed at h
  split at h
  · split at h
    · next hz => injection h with h; rw [← h]; exact hz.2
    · cases h
  · cases h

/-- A running join timer runs on when the SURVEY's outcome is told (R175). -/
theorem surveySettled_running {s : State} {j : JoinTimer} (hj : s.station.joinTimer = some j) :
    ∃ k, surveySettled s = s.updateStation fun st => { st with joinTimer := some k } := by
  obtain ⟨entered, survey⟩ := j
  unfold surveySettled State.updateStation
  simp only [hj]
  cases survey <;> exact ⟨_, rfl⟩

/-- A configuration attempt that is under way is the transaction in flight. -/
theorem reading_transaction {e : Engine} (h : e.reading = true) : ∃ stage, e.transaction = some ⟨.configRead, stage⟩ := by
  unfold Engine.reading at h
  split at h
  · next ht => exact ⟨_, ht⟩
  all_goals cases h

/-! ## The frame -/

/-- A predicate that implies the soundness of the phases and that every part of a command keeps. -/
structure SoundFrame (P : State → Prop) : Prop where
  phases : ∀ {s}, P s → PhasesSound s
  /-- Any change of Station Control, the engine and the timers that keeps the configuration and leaves the phases sound. -/
  control : ∀ (st : StationControl) (en : Engine) (rt ra : Option Time) {s : State}, st.config = s.station.config →
    PhasesSound { s with station := st, engine := en, reportTimer := rt, rateTick := ra } → P s →
    P { s with station := st, engine := en, reportTimer := rt, rateTick := ra }
  /-- Any change of the lanes' records that leaves each of them sound. -/
  lanes : ∀ (x : Four Lane) {s : State}, (∀ l, (s.lane l).SoundIn s l → (x.get l).SoundIn s l) → P s → P { s with lanes := x }
  inhibit : ∀ (x : Option Time) {s : State}, P s → P (s.updateShock fun m => { m with sendInhibit := x })
  heldOff : ∀ (ends : Time) {s : State}, P s → P (setHoldoff ends s)
  heldOffEnds : ∀ {s : State}, P s → P (holdoffEnds s)
  line : ∀ (f : LineController → LineController) {s : State}, P s → P (s.updateLine f)
  peers : ∀ (p : List PeerEntry) {s : State}, P s → P { s with peers := p }
  spend : ∀ {s : State}, P s → P s.spend
  pending : ∀ (p : List Instr) {s : State}, P s → P { s with pending := p }
  laneReport : ∀ (l : LaneNo) {s : State}, P s → P (laneReport l s)
  laneSettled : ∀ (force : Bool) (l : LaneNo) (before : Lane) {s : State}, P s → P (laneSettled force l before s)
  disturb : ∀ (zone : Byte) (hold : Nat) {s : State}, P s → P (offer (.disturb zone hold) s)
  status : ∀ {s : State}, P s → P (offer .status s)
  offerSurvey : ∀ (pairs : List (Word × Word)) {s : State}, P s → P (offerSurvey pairs s)
  notice : ∀ (before after : Option PeerEntry) {s : State}, P s → P (notice before after s)
  groupRateTick : ∀ (g : GroupNo) {s : State}, P s → P (groupRateTick g s)
  testClear : ∀ (g : GroupNo) {s : State}, P s → P (testClear g s)
  origin : ∀ (g : GroupNo) (f : Time → Time) {s : State}, P s →
    P (s.updateGroup g fun gr => { gr with alert := { gr.alert with origin := f gr.alert.origin } })
  pendingOrClear : ∀ (g : GroupNo) (gr : Group) {s : State}, s.group g = some gr → gr.alert.state ≠ .raised → P s →
    P (pendingOrClear g s)
  deferenceExpired : ∀ (g : GroupNo) (gr : Group) {s : State}, s.group g = some gr → gr.alert.state = .pending → P s →
    P (deferenceExpired g gr s)
  repeatRaise : ∀ (g : GroupNo) (gr : Group) {s : State}, s.group g = some gr → gr.alert.state = .raised → P s →
    P (repeatRaise g s)
  raiseHeard : ∀ (g : GroupNo) (sender : Nat) (level : Shortage) {s : State}, P s → P (raiseHeard g sender level s)
  clearHeard : ∀ (g : GroupNo) (sender : Nat) {s : State}, P s → P (clearHeard g sender s)
  takeHeard : ∀ (g : GroupNo) (terminal : Byte) (minutes : Nat) {s : State}, P s → P (takeHeard g terminal minutes s)
  releaseHeard : ∀ (g : GroupNo) (terminal : Byte) {s : State}, P s → P (releaseHeard g terminal s)
  checked : ∀ {s : State}, P s → P (checkLineState s)
  start : ∀ (e : Entry) {s : State}, P s → P (startSending e s)
  sent : ∀ {s : State}, P s → P (frameIsSent s)
  jamOver : ∀ (ended : Time) {s : State}, P s → P (jamEnds ended s)
  returned : ∀ {s : State}, P s → P (returnEntry id s)
  /-- A change of the queue's entries that keeps every entry's body and withdraw mark. -/
  entries : ∀ (f : Entry → Entry) {s : State}, (∀ e, (f e).body = e.body ∧ (f e).withdraw = e.withdraw) → P s →
    P { s with queue := s.queue.map f }
  expired : ∀ {s : State}, P s → P (removeExpired s)
  reset : ∀ (cause : ResetCause) (s : State), P (resetPart cause s)
  /-- The load, up to the first tick of the round timer that ends it. -/
  loaded : ∀ (block : List Byte) (x : Time) {s : State}, s.station.phase = .loading → P s →
    P ((formAndEvaluate (loadShock block (loadLanes (configurationFrom block) (loadEngine block (loadStation block s))))).updateEngine
      fun e => { e with roundTimer := some x })

namespace SoundFrame

variable {P : State → Prop} {s : State}

/-! ### Station Control and the engine -/

theorem station (F : SoundFrame P) (f : StationControl → StationControl) (hc : (f s.station).config = s.station.config)
    (hs : PhasesSound (s.updateStation f)) (h : P s) : P (s.updateStation f) :=
  F.control (f s.station) s.engine s.reportTimer s.rateTick hc hs h

/-- A change of Station Control that leaves the configuration, the phase and the timers. -/
theorem quietly (F : SoundFrame P) (f : StationControl → StationControl) (hc : (f s.station).config = s.station.config)
    (hp : (f s.station).phase = s.station.phase) (hw : (f s.station).warmUpTimer = s.station.warmUpTimer)
    (hj : (f s.station).joinTimer = s.station.joinTimer) (h : P s) : P (s.updateStation f) := by
  have k := F.phases h
  refine F.station f hc ⟨?_, ?_, ?_, ?_, ?_, ?_, ?_, ?_⟩ h <;> simp only [State.updateStation_station, hc, hp, hw, hj]
  · exact k.configured
  · exact k.reading
  · exact k.warming
  · exact k.joins
  · exact k.ticks
  · exact k.reports
  · exact k.rates
  · exact k.ungrouped

theorem counted (F : SoundFrame P) (name : CounterName) (n : Nat) (h : P s) : P (s.count name n) := F.quietly _ rfl rfl rfl rfl h

theorem latched (F : SoundFrame P) (name : FlagName) (h : P s) : P (s.latch name) := F.quietly _ rfl rfl rfl rfl h

theorem drifted (F : SoundFrame P) (l : LaneNo) (h : P s) : P (s.noteDrift l) := F.quietly _ rfl rfl rfl rfl h

theorem seeded (F : SoundFrame P) (raw : Int) (h : P s) : P (seedFrom raw s) := by
  unfold seedFrom
  split
  · exact h
  · exact F.quietly _ rfl rfl rfl rfl h

/-- A change of the engine that begins no configuration read and keeps the round timer running or stopped. -/
theorem engine (F : SoundFrame P) (f : Engine → Engine)
    (ht : ∀ stage, (f s.engine).transaction = some ⟨.configRead, stage⟩ → s.station.phase = .loading)
    (hr : (f s.engine).roundTimer.isSome = s.engine.roundTimer.isSome) (h : P s) : P (s.updateEngine f) := by
  have k := F.phases h
  refine F.control s.station (f s.engine) s.reportTimer s.rateTick rfl ⟨k.configured, ht, k.warming, k.joins, ?_, k.reports, k.rates, k.ungrouped⟩ h
  dsimp only
  rw [hr]
  exact k.ticks

/-- A change of the engine's channels, its pending round or its failed attempts. -/
theorem engineQuietly (F : SoundFrame P) (f : Engine → Engine) (ht : (f s.engine).transaction = s.engine.transaction)
    (hr : (f s.engine).roundTimer = s.engine.roundTimer) (h : P s) : P (s.updateEngine f) :=
  F.engine f (by rw [ht]; exact (F.phases h).reading) (by rw [hr]) h

theorem endTransaction (F : SoundFrame P) (h : P s) : P (endTransaction s) := F.engine _ (fun _ k => nomatch k) rfl h

theorem beginChannel (F : SoundFrame P) (c : ChannelNo) (dataHigh : Bool) (h : P s) : P (beginTransaction (.channel c) dataHigh s) :=
  F.engine _ (fun _ k => by injection k with k; injection k with k; cases k) rfl h

theorem beginRead (F : SoundFrame P) (dataHigh : Bool) (hl : s.station.phase = .loading) (h : P s) :
    P (beginTransaction .configRead dataHigh s) := F.engine _ (fun _ _ => hl) rfl h

theorem setStage (F : SoundFrame P) (stage : BusStage) (h : P s) : P (setStage stage s) := by
  refine F.engine _ (fun x k => ?_) rfl h
  obtain ⟨t, ht, e⟩ := Option.map_eq_some_iff.mp k
  injection e with e
  exact (F.phases h).reading t.stage (by rw [ht, ← e])

/-! ### The lanes -/

theorem lane (F : SoundFrame P) (l : LaneNo) (f : Lane → Lane) (hf : (s.lane l).SoundIn s l → (f (s.lane l)).SoundIn s l) (h : P s) :
    P (s.updateLane l f) := by
  refine F.lanes _ (fun m k => ?_) h
  rw [Four.get_set]
  split
  · next e => subst e; exact hf k
  · exact k

/-- A change of a lane's service record that leaves its state and hold timer. -/
theorem service (F : SoundFrame P) (l : LaneNo) (f : Service → Service) (hs : (f (s.lane l).service).state = (s.lane l).service.state)
    (hh : (f (s.lane l).service).holdTimer = (s.lane l).service.holdTimer) (h : P s) : P (s.updateService l f) :=
  F.lane l _ (fun k => k.of_eq hs hh rfl fun _ m => m) h

/-- A change of a lane's weighing record that keeps it MOVING. -/
theorem weighing (F : SoundFrame P) (l : LaneNo) (f : Weighing → Weighing)
    (hm : s.shock.holdoff.isSome = true → (s.lane l).weighing.motion = .moving → (f (s.lane l).weighing).motion = .moving) (h : P s) :
    P (s.updateWeighing l f) := F.lane l _ (fun k => k.of_eq rfl rfl rfl hm) h

theorem changed (F : SoundFrame P) (l : LaneNo) (f : Lane → Lane) (hf : (s.lane l).SoundIn s l → (f (s.lane l)).SoundIn s l) (h : P s) :
    P (changeLane l f s) := F.laneSettled false l (s.lane l) (F.lane l f hf h)

theorem foldl (_ : SoundFrame P) {α : Type} {f : State → α → State} (hf : ∀ s a, P s → P (f s a)) (l : List α) (h : P s) :
    P (l.foldl f s) := foldl_relates (fun t s => P s → P t) (fun _ h => h) (fun h k x => h (k x)) f (fun s a => hf s a) l s h

theorem eachLane (F : SoundFrame P) {f : LaneNo → State → State} (hf : ∀ l s, P s → P (f l s)) (h : P s) : P (eachLane f s) :=
  F.foldl (fun s l => hf l s) _ (F.spend h)

theorem eachGroup (F : SoundFrame P) {f : GroupNo → State → State} (hf : ∀ g s, P s → P (f g s)) (h : P s) : P (eachGroup f s) :=
  F.foldl (fun s g => hf g s) _ (F.spend h)

theorem laneFaults (F : SoundFrame P) (l : LaneNo) (h : P s) : P (laneFaults l s) := by
  unfold Machine.laneFaults
  split
  · next hs => exact F.changed l _ (fun k => k.faults (by rintro e; rw [e] at hs; cases hs) _) h
  · exact h

theorem testFault (F : SoundFrame P) (l : LaneNo) (h : P s) : P (testFault l s) := by
  unfold Machine.testFault
  split
  · next hs => exact F.changed l _ (fun k => k.resumes (by rw [hs.1]; decide) _) h
  · exact h

theorem laneBrownOutEnd (F : SoundFrame P) (l : LaneNo) (h : P s) : P (laneBrownOutEnd l s) := by
  unfold Machine.laneBrownOutEnd
  split
  · next hs => exact F.changed l _ (fun k => k.resumes (by rw [hs]; decide) _) h
  · next hs => exact F.changed l _ (fun k => k.resumes (by rw [hs]; decide) _) h
  all_goals exact h

theorem refusePress (F : SoundFrame P) (l : LaneNo) (h : P s) : P (refusePress l s) := F.service l _ rfl rfl h

theorem shortPress (F : SoundFrame P) (l : LaneNo) (h : P s) : P (shortPress l s) := by
  unfold Machine.shortPress
  split
  · exact h
  · next hs =>
    split
    · exact F.refusePress l h
    · exact F.changed l _ (fun k => k.isHeld (by rw [hs]; decide) _ _) h
  · next hs =>
    split
    · exact F.refusePress l h
    · exact F.changed l _ (fun k => k.resumes (by rw [hs]; decide) _) h
  all_goals exact F.refusePress l h

theorem reZero (F : SoundFrame P) (l : LaneNo) {offset : Int} (hs : (s.lane l).service.state = .inService)
    (ho : reZeroAllowed (s.laneSettings l) (s.lane l) = some offset) (h : P s) : P (reZero l offset s) := by
  refine F.laneSettled true l _ (F.lane l _ (fun k => ?_) h)
  exact k.moves (by rw [hs]; decide) k.holds (reZeroAllowed_le ho) id

theorem longPressTaken (F : SoundFrame P) (l : LaneNo) (h : P s) : P (longPressTaken l s) := by
  unfold Machine.longPressTaken
  split
  · exact h
  · next hs =>
    split
    · exact F.refusePress l h
    · split
      · next ho => exact F.reZero l hs ho h
      · exact F.refusePress l h
  all_goals exact F.refusePress l h

theorem applyCandidate (F : SoundFrame P) (candidate : Time) (h : P s) : P (applyCandidate candidate s) := by
  unfold Machine.applyCandidate
  split
  · exact F.heldOff _ h
  · split
    · exact F.heldOff _ h
    · exact h

theorem shockReported (F : SoundFrame P) (h : P s) : P (shockReported s) := by
  unfold Machine.shockReported disturbOffer
  split
  · exact F.disturb _ _ (F.inhibit _ (F.applyCandidate _ h))
  · exact F.applyCandidate _ h

theorem countSettlement (F : SoundFrame P) (r : Settlement) (h : P s) : P (countSettlement r s) := by
  unfold Machine.countSettlement
  dsimp only
  have picked : P (if r.amount < 0 then s.count .unitsPicked r.amount.natAbs else s) := by
    split
    · exact F.counted _ _ h
    · exact h
  have put : P (if 0 < r.amount then (if r.amount < 0 then s.count .unitsPicked r.amount.natAbs else s).count .unitsPut r.amount.natAbs
      else if r.amount < 0 then s.count .unitsPicked r.amount.natAbs else s) := by
    split
    · exact F.counted _ _ picked
    · exact picked
  split
  · exact F.counted _ _ put
  · exact put

theorem countSettlement_lanes (r : Settlement) (s : State) : (Machine.countSettlement r s).lanes = s.lanes := by
  unfold Machine.countSettlement
  split <;> split <;> split <;> rfl

theorem countSettlement_shock (r : Settlement) (s : State) : (Machine.countSettlement r s).shock = s.shock := by
  unfold Machine.countSettlement
  split <;> split <;> split <;> rfl

theorem settlementArrives (F : SoundFrame P) (l : LaneNo) (level : Int) (isOver : Bool) (h : P s) :
    P (settlementArrives l level isOver s) := by
  unfold Machine.settlementArrives
  dsimp only
  split
  · next hs =>
    set r := settlement (s.laneSettings l) (s.lane l).counter level isOver with hr
    set u := if r.drifted then s.noteDrift l else s with hu
    have agrees : (Machine.countSettlement r u).AgreesButLanes s := (countSettlement_agreesLanes r u).trans <| by
      rw [hu]
      split <;> rfl
    have lanes : (Machine.countSettlement r u).lane l = s.lane l := by
      rw [State.lane, countSettlement_lanes, hu]
      split <;> rfl
    have shock : (Machine.countSettlement r u).shock = s.shock := by
      rw [countSettlement_shock, hu]
      split <;> rfl
    have hPu : P u := by
      rw [hu]
      split
      · exact F.drifted l h
      · exact h
    refine F.changed l _ (fun k => ?_) (F.countSettlement r hPu)
    unfold Lane.SoundIn at k ⊢
    rw [agrees.laneSettings, agrees.config, shock, lanes] at k ⊢
    exact k.settles hs level isOver
  · exact h

/-- A settling test leaves a lane MOVING that is so, but where it settles. -/
theorem takeFiltered (F : SoundFrame P) (l : LaneNo) (f : Weight) (h : P s) : P (takeFiltered l f s) := by
  unfold Machine.takeFiltered
  split
  · exact h
  · next hn =>
    have k := fun x => F.weighing (s := s) l (fun _ => x) (fun hs => by rw [hn] at hs; cases hs) h
    dsimp only
    split
    · exact F.settlementArrives l _ _ (k _)
    · exact k _

theorem enterFilter (F : SoundFrame P) (l : LaneNo) (g : Weight) (h : P s) : P (enterFilter l g s) :=
  F.weighing l _ (fun _ m => m) h

theorem takeSample (F : SoundFrame P) (l : LaneNo) (g : Weight) (h : P s) : P (takeSample l g s) := by
  unfold Machine.takeSample
  split
  · unfold shockSample
    exact F.enterFilter l g (F.weighing l _ (fun _ m => m) (F.weighing l _ (fun _ _ => rfl) (F.shockReported h)))
  · have k := F.enterFilter l g (F.weighing (s := s) l (fun w => { w with previousGross := some g.grams }) (fun _ m => m) h)
    unfold quietSample
    dsimp only
    split
    · exact F.takeFiltered l _ k
    · exact k

theorem deliverRound (F : SoundFrame P) (l : LaneNo) (h : P s) : P (deliverRound l s) := by
  unfold Machine.deliverRound
  dsimp only
  split
  · exact F.takeSample l _ (F.testFault l h)
  · exact F.testFault l h

theorem nameLane (F : SoundFrame P) (l : LaneNo) (h : P s) : P (nameLane l s) := by
  unfold Machine.nameLane
  split
  · exact h
  · split
    · exact F.laneReport l h
    · split
      · exact h
      · exact F.service l _ rfl rfl h

theorem surveyHeard (F : SoundFrame P) (pairs : List (Word × Word)) (h : P s) : P (surveyHeard pairs s) := by
  refine F.eachLane (fun l s h => ?_) h
  split
  · exact F.nameLane l h
  · exact h

theorem disturbHeard (F : SoundFrame P) (zone : Byte) (hold : Nat) (h : P s) : P (disturbHeard zone hold s) := by
  unfold Machine.disturbHeard
  split
  · exact F.applyCandidate _ h
  · exact h

/-! ### Rounds -/

theorem changeChannel (F : SoundFrame P) (c : ChannelNo) (f : Channel → Channel) (h : P s) : P (changeChannel c f s) := by
  have k : P (s.updateChannel c f) := F.engineQuietly (fun e => { e with channels := e.channels.set c (f (e.channels.get c)) }) rfl rfl h
  unfold Machine.changeChannel reportChannel
  dsimp only
  split
  · exact F.foldl (fun s l => F.laneFaults l) _ k
  · split
    · exact F.foldl (fun s l => F.testFault l) _ k
    · exact k

theorem recordFailure (F : SoundFrame P) (c : ChannelNo) (h : P s) : P (recordFailure c s) := F.changeChannel c _ (F.counted _ _ h)

theorem recordEnd (F : SoundFrame P) (c : ChannelNo) (result : ConverterEnd) (h : P s) : P (recordEnd c result s) := by
  unfold Machine.recordEnd
  split
  · exact F.recordFailure c h
  · split
    · exact F.changeChannel c _ (F.seeded _ h)
    · exact F.recordFailure c h

theorem deliverResults (F : SoundFrame P) (h : P s) : P (deliverResults s) :=
  F.engineQuietly _ rfl rfl (F.eachLane (fun l _ => F.deliverRound l) h)

theorem startRound (F : SoundFrame P) (dataHigh : Bool) (h : P s) : P (startRound dataHigh s) := by
  unfold Machine.startRound
  split
  · exact F.beginChannel _ dataHigh h
  · exact F.deliverResults h

theorem endRound (F : SoundFrame P) (dataHigh : Bool) (h : P s) : P (endRound dataHigh s) := by
  have k := F.deliverResults (F.endTransaction h)
  unfold Machine.endRound
  dsimp only
  split
  · exact F.startRound dataHigh (F.engineQuietly _ rfl rfl k)
  · exact k

theorem nextChannel (F : SoundFrame P) (c : ChannelNo) (dataHigh : Bool) (h : P s) : P (nextChannel c dataHigh s) := by
  unfold Machine.nextChannel
  split
  · exact F.beginChannel _ dataHigh h
  · exact F.endRound dataHigh h

theorem stuckRound (F : SoundFrame P) (channels : List ChannelNo) (dataHigh : Bool) (h : P s) : P (stuckRound channels dataHigh s) :=
  F.endRound dataHigh (F.latched _ (F.foldl (fun _ c => F.recordFailure c) _ h))

/-- A tick keeps what the state with the next tick has. -/
theorem takeTick (F : SoundFrame P) (tick : Time) (dataHigh : Bool)
    (h : P (s.updateEngine fun e => { e with roundTimer := some (tick.addUs s.settings.samplePeriodUs) })) :
    P (takeTick tick dataHigh s) := by
  unfold Machine.takeTick
  dsimp only
  split
  · exact h
  · split
    · exact F.counted _ _ (F.engineQuietly _ rfl rfl h)
    · exact F.startRound dataHigh h

/-! ### The configuration read -/

theorem loading_of_reading (F : SoundFrame P) (h : P s) {stage : BusStage} (ht : s.engine.transaction = some ⟨.configRead, stage⟩) :
    s.station.phase = .loading := (F.phases h).reading stage ht

theorem unconfigured (F : SoundFrame P) (h : P s) (hj : s.station.phase ≠ .joining) (hr : s.station.phase ≠ .running) :
    s.station.config = none := by
  cases hc : s.station.config with
  | none => rfl
  | some c =>
    rcases (F.phases h).configured.mp (by rw [hc]; rfl) with k | k
    · exact absurd k hj
    · exact absurd k hr

/-- The station enters CONFIG FAULT from a phase without a configuration. -/
theorem enterConfigFault (F : SoundFrame P) (hj : s.station.phase ≠ .joining) (hr : s.station.phase ≠ .running) (h : P s) :
    P (enterConfigFault s) := by
  have k := F.phases h
  have none := F.unconfigured h hj hr
  have off {α : Type} {x : Option α} {p : Prop} (hx : x.isSome = true ↔ p) (np : ¬ p) : ¬ x.isSome = true := fun e => np (hx.mp e)
  have hP : P { s with lanes := s.lanes.map fun lane => { lane with service := { lane.service with faultBeatOrigin := s.now } } } :=
    F.lanes _ (fun l x => by rw [Four.get_map]; exact x.of_eq rfl rfl rfl fun _ m => m) h
  refine F.control (s := { s with lanes := _ }) { s.station with phase := .configFault, warmUpTimer := .none }
    { s.engine with transaction := .none } s.reportTimer s.rateTick rfl
    ⟨?_, fun _ e => (nomatch e), fun e => (nomatch e), ?_, k.ticks, ?_, ?_, k.ungrouped⟩ hP <;> dsimp only
  · simp [none]
  · simpa using off k.joins hj
  · simpa using off k.reports hr
  · simpa using off k.rates hr

theorem beginAttempt (F : SoundFrame P) (dataHigh : Bool) (hl : s.station.phase = .loading) (h : P s) : P (beginAttempt dataHigh s) :=
  F.beginRead dataHigh hl (F.quietly _ rfl rfl rfl rfl h)

theorem failAttempt (F : SoundFrame P) (dataHigh : Bool) (hl : s.station.phase = .loading) (h : P s) : P (failAttempt dataHigh s) := by
  have k : P ((Machine.endTransaction s).updateEngine fun e => { e with failedAttempts := e.failedAttempts + 1 }) :=
    F.engineQuietly _ rfl rfl (F.endTransaction h)
  unfold Machine.failAttempt
  dsimp only
  split
  · exact F.beginAttempt dataHigh hl k
  · refine F.enterConfigFault ?_ ?_ k <;> (change s.station.phase ≠ _; rw [hl]; decide)

theorem loadCompletes (F : SoundFrame P) (block : List Byte) (dataHigh : Bool) (hl : s.station.phase = .loading) (h : P s) :
    P (loadCompletes block dataHigh s) := by
  unfold Machine.loadCompletes
  dsimp only
  refine F.takeTick _ dataHigh ?_
  split
  · exact F.loaded block _ (s := s.latch .configAdjusted) hl (F.latched _ h)
  · exact F.loaded block _ hl h

theorem segmentEnds (F : SoundFrame P) (bytes : List Byte) (dataHigh : Bool) (hl : s.station.phase = .loading) (h : P s) :
    P (segmentEnds bytes dataHigh s) := by
  have k : P (s.updateStation fun st => { st with block := st.block ++ bytes }) := F.quietly _ rfl rfl rfl rfl h
  unfold Machine.segmentEnds
  dsimp only
  split
  · exact F.failAttempt dataHigh hl k
  · split
    · exact F.setStage _ k
    · split
      · unfold readSucceeds
        split
        · exact F.loadCompletes _ dataHigh hl k
        · refine F.enterConfigFault ?_ ?_ k <;> (change s.station.phase ≠ _; rw [hl]; decide)
      · exact F.failAttempt dataHigh hl k

theorem stuckAfterRecovery (F : SoundFrame P) (user : BusUser) (dataHigh : Bool) {stage : BusStage}
    (ht : s.engine.transaction = some ⟨user, stage⟩) (h : P s) : P (stuckAfterRecovery user dataHigh s) := by
  cases user with
  | channel c => exact F.stuckRound _ dataHigh h
  | configRead =>
    have hl := F.loading_of_reading h ht
    exact F.failAttempt (s := s.latch .sensorBusFault) dataHigh hl (F.latched _ h)

theorem stretchStops (F : SoundFrame P) (user : BusUser) (dataHigh : Bool) {stage : BusStage}
    (ht : s.engine.transaction = some ⟨user, stage⟩) (h : P s) : P (stretchStops user dataHigh s) := by
  cases user with
  | channel c => exact F.nextChannel c dataHigh (F.recordFailure c h)
  | configRead => exact F.failAttempt dataHigh (F.loading_of_reading h ht) h

theorem busIsHeld (F : SoundFrame P) (user : BusUser) (dataHigh : Bool) {stage : BusStage}
    (ht : s.engine.transaction = some ⟨user, stage⟩) (h : P s) : P (busIsHeld user dataHigh s) := by
  cases user with
  | channel c => exact F.stuckRound _ dataHigh (F.recordFailure c h)
  | configRead => exact F.failAttempt dataHigh (F.loading_of_reading h ht) h

theorem handOver (F : SoundFrame P) (user : BusUser) (received : List Byte) (h : P s) : P (handOver user received s) := by
  cases user with
  | channel c => exact h
  | configRead => exact F.quietly (fun st => { st with block := st.block ++ received }) rfl rfl rfl rfl h

theorem holdFails (F : SoundFrame P) (t : Transaction) (received : List Byte) (dataHigh : Bool) (ht : s.engine.transaction = some t)
    (h : P s) : P (holdFails t received dataHigh s) := by
  unfold Machine.holdFails
  split
  · split
    · exact F.setStage _ (F.handOver _ _ h)
    · exact h
  · split
    · exact F.stuckAfterRecovery t.user dataHigh (stage := t.stage) ht h
    · exact h
  · exact h

/-! ### The line and received frames -/

theorem waitIdle (F : SoundFrame P) (h : P s) : P (waitIdle s) := F.line _ h

theorem heardLow (F : SoundFrame P) (level : LineLevel) (lowEnd : Time) (h : P s) : P (heardLow level lowEnd s) := F.line _ h

theorem heardCharacter (F : SoundFrame P) (us : Nat) (value : Byte) (h : P s) : P (heardCharacter us value s) := F.heardLow _ _ h

theorem foreignLow (F : SoundFrame P) (level : LineLevel) (lowEnd : Time) (h : P s) : P (foreignLow level lowEnd s) := by
  unfold Machine.foreignLow
  split
  · exact F.line _ h
  · exact h

theorem lineError (F : SoundFrame P) (code : LineError) (h : P s) : P (lineError code s) := by
  unfold Machine.lineError raiseRec
  exact F.checked (F.line _ (F.counted _ _ (F.line _ (F.quietly _ rfl rfl rfl rfl (F.line _ h)))))

theorem filterOut (F : SoundFrame P) (h : P s) : P (filterOut s) := F.counted _ _ h

theorem fromGateway (F : SoundFrame P) (sender : Nat) {keep : State → State} (hk : P s → P (keep s)) (h : P s) :
    P (fromGateway sender keep s) := by
  unfold Machine.fromGateway
  split
  · exact hk h
  · exact F.counted _ _ h

theorem takeReport (F : SoundFrame P) (e : PeerEntry) (h : P s) : P (takeReport e s) := by
  unfold Machine.takeReport
  split
  · unfold overwriteReport
    dsimp only
    split
    · exact F.peers _ h
    · exact F.notice _ _ (F.peers _ h)
  · split
    · exact F.notice _ _ (F.peers _ h)
    · split
      · exact F.notice _ _ (F.notice _ _ (F.peers _ h))
      · exact F.counted _ _ h

theorem ageEntry (F : SoundFrame P) (sender : Nat) (lane : LaneNo) (h : P s) : P (ageEntry sender lane s) := by
  unfold Machine.ageEntry
  split
  · exact h
  · split
    · exact F.notice _ _ (F.peers _ h)
    · exact h

theorem forgetEntry (F : SoundFrame P) (sender : Nat) (lane : LaneNo) (h : P s) : P (forgetEntry sender lane s) := by
  unfold Machine.forgetEntry
  split
  · exact h
  · split
    · exact F.notice _ _ (F.peers _ h)
    · exact h

theorem filterByKind (F : SoundFrame P) (sender : Nat) (body : RxBody) (h : P s) : P (filterByKind sender body s) := by
  cases body with
  | stock lane article pack count stateCode confidenceCode =>
    change P (filterStock sender _ s)
    unfold filterStock
    split
    · split
      · exact F.takeReport _ h
      · exact F.filterOut h
    · exact F.filterOut h
  | survey pairs =>
    change P (filterSurvey sender pairs s)
    unfold filterSurvey
    split
    · exact F.surveyHeard pairs h
    · exact F.filterOut h
  | disturb zone hold =>
    change P (filterDisturb sender zone hold s)
    unfold filterDisturb
    split
    · exact F.disturbHeard zone hold h
    · exact F.filterOut h
  | raise key mask levelCode qualityCode aggregate reorder =>
    change P (filterRaise sender key mask levelCode qualityCode s)
    unfold filterRaise
    split
    · split
      · exact F.raiseHeard _ _ _ h
      · exact F.filterOut h
    · exact F.filterOut h
    · exact F.filterOut h
  | clear key mask =>
    change P (filterClear sender key mask s)
    unfold filterClear
    split
    · split
      · exact F.clearHeard _ _ h
      · exact F.filterOut h
    · exact F.filterOut h
  | take key mask terminal minutes =>
    refine F.fromGateway sender (keep := fun s => match s.findGroup key mask with
      | some g => if minutes = 0 then Machine.releaseHeard g terminal s else Machine.takeHeard g terminal minutes s
      | none => Machine.filterOut s) (fun h => ?_) h
    split
    · split
      · exact F.releaseHeard _ _ h
      · exact F.takeHeard _ _ _ h
    · exact F.filterOut h
  | query target =>
    refine F.fromGateway sender (keep := fun s => if target = s.number then offer .status s else Machine.filterOut s)
      (fun h => ?_) h
    split
    · exact F.status h
    · exact F.filterOut h
  | status => exact F.filterOut h
  | restart target =>
    refine F.fromGateway sender (keep := fun s => if target = s.number then resetPart .restart s else Machine.filterOut s)
      (fun h => ?_) h
    split
    · exact F.reset _ s
    · exact F.filterOut h

theorem frameReceived (F : SoundFrame P) (chars : List Byte) (h : P s) : P (frameReceived chars s) := by
  have heard : P (heardFrame chars s) := F.heardCharacter _ _ h
  unfold Machine.frameReceived
  split
  · split
    · have k : P (lowerRec (Machine.waitIdle (heardFrame chars s))) := F.checked (F.line _ (F.waitIdle heard))
      unfold filterFrame
      split
      · exact F.filterOut k
      · split
        · exact F.filterOut k
        · split
          · exact F.latched _ k
          · exact F.filterByKind _ _ k
    · exact F.lineError _ heard
    · exact h
  · exact h

theorem framingFaultSeen (F : SoundFrame P) (h : P s) : P (framingFaultSeen s) := by
  unfold Machine.framingFaultSeen
  split
  · exact F.lineError _ (F.line _ h)
  · exact F.waitIdle (F.line _ h)
  · exact F.foreignLow _ _ h
  · exact h

theorem breakSeen (F : SoundFrame P) (h : P s) : P (breakSeen s) := by
  unfold Machine.breakSeen
  split
  · exact F.waitIdle (F.line _ h)
  · exact F.waitIdle (F.line _ h)
  · exact F.foreignLow _ _ h
  · exact h

theorem gapPasses (F : SoundFrame P) (chars : List Byte) (gap : Nat) (h : P s) : P (gapPasses chars gap s) := by
  unfold Machine.gapPasses
  split
  · split
    · exact F.lineError _ (F.line _ h)
    · exact h
  all_goals exact h

theorem lengthTooLong (F : SoundFrame P) (length : Byte) (h : P s) : P (lengthTooLong length s) := by
  unfold Machine.lengthTooLong
  split
  · exact F.lineError _ (F.heardCharacter _ _ h)
  · exact h

theorem readyCharacter (F : SoundFrame P) (value : Byte) (h : P s) : P (readyCharacter value s) := by
  unfold Machine.readyCharacter
  split
  · exact F.line _ (F.heardCharacter _ _ h)
  all_goals exact h

theorem attemptBegins (F : SoundFrame P) (h : P s) : P (attemptBegins s) :=
  attemptBegins_keeps (fun _ h => F.spend h) (fun _ h => F.counted _ _ h) (fun _ e _ _ h => F.start e h) s h

theorem abandonAttempt (F : SoundFrame P) (h : P s) : P (abandonAttempt s) := by
  unfold Machine.abandonAttempt
  split
  · exact h
  · split
    · exact F.returned (F.line _ h)
    · exact F.jamOver _ h

/-! ### Time, resets and joining -/

theorem passTime (F : SoundFrame P) (elapsed : Nat) (h : P s) : P (passTime elapsed s) := by
  have marked (t : Time) : P { s with queue := markBusySeen t s.queue } := F.entries _ (fun e => by split <;> exact ⟨rfl, rfl⟩) h
  have clock {s : State} (h : P s) : P (s.updateStation fun st => { st with clock := s.now.addUs elapsed }) := F.quietly _ rfl rfl rfl rfl h
  unfold Machine.passTime
  dsimp only
  split
  · exact clock (marked _)
  · exact clock h

theorem keepUp (F : SoundFrame P) (h : P s) : P (keepUp s) := by
  have marked : P { s with queue := (Machine.keepUp s).queue } := by
    unfold Machine.keepUp
    dsimp only
    split
    · exact F.entries _ (fun e => by split <;> exact ⟨rfl, rfl⟩) h
    · exact h
  exact F.line (fun _ => (Machine.keepUp s).line) marked

theorem timed (F : SoundFrame P) (elapsed : Nat) {event : State → State} (he : ∀ {s}, P s → P (event s)) (h : P s) :
    P (timed elapsed event s) := by
  unfold Machine.timed
  split
  · exact h
  · exact F.keepUp (he (F.passTime elapsed h))

theorem resetEnds (F : SoundFrame P) (straps : BitVec 6) (hr : s.station.phase = .reset) (h : P s) : P (resetEnds straps s) := by
  have k := F.phases h
  cases hv : validNumber straps with
  | false =>
    have started : P (s.updateStation fun st =>
        { st with clock := Time.zero, number := straps, seed := ⟨straps, none⟩, brownOut := if st.supplyGood then .none else .low }) :=
      F.quietly _ rfl rfl rfl rfl h
    have e : Machine.resetEnds straps s = Machine.enterConfigFault (s.updateStation fun st =>
        { st with clock := Time.zero, number := straps, seed := ⟨straps, none⟩, brownOut := if st.supplyGood then .none else .low }) := by
      unfold Machine.resetEnds
      dsimp only
      rw [if_neg (by rw [hv]; exact Bool.false_ne_true)]
    rw [e]
    refine F.enterConfigFault ?_ ?_ started <;> (change s.station.phase ≠ _; rw [hr]; decide)
  | true =>
    rw [resetEnds_valid hv]
    have none := F.unconfigured h (by rw [hr]; decide) (by rw [hr]; decide)
    refine F.control _ s.engine s.reportTimer s.rateTick rfl ⟨?_, fun stage e => ?_, fun _ => rfl, ?_, k.ticks, ?_, ?_, k.ungrouped⟩ h
    · simp [none]
    · exact absurd (k.reading stage e) (by rw [hr]; decide)
    · have := k.joins; rw [hr] at this; simpa using this
    · have := k.reports; rw [hr] at this; simpa using this
    · have := k.rates; rw [hr] at this; simpa using this

theorem restartEnds (F : SoundFrame P) (straps : BitVec 6) (h : P s) : P (restartEnds straps s) := by
  unfold Machine.restartEnds
  split
  · next hr => exact F.resetEnds straps hr h
  · exact h

theorem warmUpEnds (F : SoundFrame P) (dataHigh : Bool) (hd : due s.station.warmUpTimer s.now = true) (h : P s) :
    P (warmUpEnds dataHigh s) := by
  have k := F.phases h
  have hw : s.station.phase = .warmUp := k.warming <| by
    cases hx : s.station.warmUpTimer with
    | none => rw [hx] at hd; cases hd
    | some x => rfl
  have none := F.unconfigured h (by rw [hw]; decide) (by rw [hw]; decide)
  refine F.beginAttempt dataHigh rfl (F.station _ rfl ⟨?_, fun stage e => rfl, fun e => (nomatch e), ?_, k.ticks, ?_, ?_, k.ungrouped⟩ h)
  · simp [none]
  · have := k.joins; rw [hw] at this; simpa using this
  · have := k.reports; rw [hw] at this; simpa using this
  · have := k.rates; rw [hw] at this; simpa using this

theorem enterBrownOut (F : SoundFrame P) (h : P s) : P (enterBrownOut s) := by
  have k := F.phases h
  have fallen : P (s.updateStation fun st => { st with supplyGood := false, brownOut := .low, warmUpTimer := none }) :=
    F.station _ rfl ⟨k.configured, k.reading, fun e => (nomatch e), k.joins, k.ticks, k.reports, k.rates, k.ungrouped⟩ h
  refine F.abandonAttempt (F.engine _ (fun _ e => (nomatch e)) rfl ?_)
  unfold dropAttemptBytes
  split
  · exact F.quietly _ rfl rfl rfl rfl fallen
  · exact fallen

theorem startWarmUp (F : SoundFrame P) (hw : s.station.phase = .warmUp) (h : P s) : P (startWarmUp s) := by
  have k := F.phases h
  exact F.station _ rfl ⟨k.configured, k.reading, fun _ => hw, k.joins, k.ticks, k.reports, k.rates, k.ungrouped⟩ h

theorem brownOutEnds (F : SoundFrame P) (dataHigh : Bool) (h : P s) : P (brownOutEnds dataHigh s) := by
  have ended : P (s.updateStation fun st => { st with brownOut := .none }) := F.quietly _ rfl rfl rfl rfl h
  unfold Machine.brownOutEnds
  dsimp only
  split
  · next hw => exact F.startWarmUp hw ended
  · next hl => exact F.beginAttempt dataHigh hl ended
  · exact F.eachLane (fun l _ => F.laneBrownOutEnd l) ended
  · exact F.eachLane (fun l _ => F.laneBrownOutEnd l) ended
  · exact ended
  · exact ended

/-- A change of the join timer that keeps it running. -/
theorem joinTimer (F : SoundFrame P) {j k : JoinTimer} (hj : s.station.joinTimer = some j) (h : P s) :
    P (s.updateStation fun st => { st with joinTimer := some k }) := by
  have x := F.phases h
  exact F.station _ rfl ⟨x.configured, x.reading, x.warming, iff_of_true rfl (x.joins.mp (by rw [hj]; rfl)), x.ticks, x.reports, x.rates, x.ungrouped⟩ h

theorem surveySettled (F : SoundFrame P) (h : P s) : P (surveySettled s) := by
  cases hj : s.station.joinTimer with
  | none => exact F.quietly _ (by simp [hj]) (by simp [hj]) (by simp [hj]) (by simp [hj]) h
  | some j =>
    obtain ⟨k, e⟩ := surveySettled_running hj
    rw [e]
    exact F.joinTimer hj h

theorem joinSurvey (F : SoundFrame P) {j : JoinTimer} (hj : s.station.joinTimer = some j) (h : P s) : P (joinSurvey j s) := by
  have noted := F.joinTimer (k := { j with survey := .offered }) hj h
  unfold Machine.joinSurvey
  dsimp only
  split
  · exact F.surveySettled noted
  · exact F.offerSurvey _ noted

theorem joiningEnds (F : SoundFrame P) {j : JoinTimer} (hj : s.station.joinTimer = some j) (h : P s) : P (joiningEnds s) := by
  have x := F.phases h
  have joining : s.station.phase = .joining := x.joins.mp (by rw [hj]; rfl)
  refine F.eachGroup (fun g _ => F.testClear g) (F.eachLane (fun l _ => F.laneReport l)
    (F.control (s := s) { s.station with phase := .running, joinTimer := none } s.engine _ _ rfl
      ⟨?_, fun stage e => ?_, fun e => ?_, ?_, x.ticks, ?_, ?_, x.ungrouped⟩ h)) <;> dsimp only
  · have := x.configured; rw [joining] at this; simpa using this
  · exact absurd (x.reading stage e) (by rw [joining]; decide)
  · exact absurd (x.warming e) (by rw [joining]; decide)
  · simp
  · simp
  · simp

theorem reportsFall (F : SoundFrame P) {expiry : Time} (ht : s.reportTimer = some expiry) (h : P s) : P (reportsFall expiry s) := by
  have x := F.phases h
  refine F.eachLane (fun l _ => F.laneReport l) (F.control s.station s.engine (some (expiry.addMs s.reportMs)) s.rateTick rfl
    ⟨x.configured, x.reading, x.warming, x.joins, x.ticks, ?_, x.rates, x.ungrouped⟩ h)
  exact iff_of_true rfl (x.reports.mp (by rw [ht]; rfl))

theorem rateTickFalls (F : SoundFrame P) {tick : Time} (ht : s.rateTick = some tick) (h : P s) : P (rateTickFalls tick s) := by
  have x := F.phases h
  refine F.eachGroup (fun g _ => F.groupRateTick g) (F.control (s := s) s.station s.engine s.reportTimer (some (tick.addMs rateMs)) rfl
    ⟨x.configured, x.reading, x.warming, x.joins, x.ticks, x.reports, ?_, x.ungrouped⟩ h)
  exact iff_of_true rfl (x.rates.mp (by rw [ht]; rfl))

/-! ### The commands and the steps -/

theorem choose (_F : SoundFrame P) (q : Prop) [Decidable q] {a : State} (ha : q → P a) (h : P s) : P (if q then a else s) := by
  split
  · next hq => exact ha hq
  · exact h

theorem ofChecked (_F : SoundFrame P) {ok : Bool} {a t : State} (e : Machine.checked ok a = .next t) (h : P a) : P t := by
  unfold Machine.checked at e
  split at e
  · rw [← next_injective e]; exact h
  · cases e

theorem onGroup (_F : SoundFrame P) {g : GroupNo} {event : Group → State → State} (he : ∀ gr, s.group g = some gr → P (event gr s))
    (h : P s) : P (s.onGroup g event) := by
  unfold State.onGroup
  split
  · next gr hg => exact he gr hg
  · exact h

theorem setButton (F : SoundFrame P) (l : LaneNo) (high : Bool) (h : P s) : P (setButton l high s) := F.service l _ rfl rfl h

theorem buttonChanges (F : SoundFrame P) (l : LaneNo) (high : Bool) (h : P s) : P (buttonChanges l high s) := by
  have k := F.setButton l high h
  unfold Machine.buttonChanges
  split
  · exact h
  · unfold startDebounce
    split
    · exact k
    · split <;> exact F.service l _ rfl rfl k

theorem releaseTaken (F : SoundFrame P) (l : LaneNo) (h : P s) : P (releaseTaken l s) := by
  have k := F.service (s := s) l (fun sv => { sv with button := .inactive, debounce := none, press := .none }) rfl rfl h
  unfold Machine.releaseTaken
  dsimp only
  split
  · exact F.shortPress l k
  · exact k
  · exact k

theorem originAdvances (F : SoundFrame P) (origin : OriginName) (h : P s) : P (originAdvances origin s) := by
  cases origin with
  | refuse l => exact F.service l (fun sv => { sv with refuseOrigin := advanceOrigin s.now sv.refuseOrigin }) rfl rfl h
  | holdBeat l => exact F.service l (fun sv => { sv with holdBeatOrigin := advanceOrigin s.now sv.holdBeatOrigin }) rfl rfl h
  | faultBeat l => exact F.service l (fun sv => { sv with faultBeatOrigin := advanceOrigin s.now sv.faultBeatOrigin }) rfl rfl h
  | group g => exact F.origin g (advanceOrigin s.now) h

theorem setSupply (F : SoundFrame P) (good : Bool) (h : P s) : P (setSupply good s) := F.quietly _ rfl rfl rfl rfl h

/-- Every command keeps the predicate. -/
theorem ofExec (F : SoundFrame P) (i : Instr) {t : State} (e : exec i s = .next t) (h : P s) : P t := by
  have frame (chars : List Byte) {ok : Bool} {elapsed : Nat} (e : Machine.checked ok (Machine.timed elapsed (Machine.frameReceived chars) s) = .next t) : P t :=
    F.ofChecked e (F.timed _ (F.frameReceived chars) h)
  cases i <;> simp only [exec] at e
  case stockReceived => exact frame _ e
  case surveyReceived => exact frame _ e
  case disturbReceived => exact frame _ e
  case raiseReceived => exact frame _ e
  case clearReceived => exact frame _ e
  case take => exact frame _ e
  case takeRelease => exact frame _ e
  case query => exact frame _ e
  case statusFrameReceived => exact frame _ e
  case frameRejected => exact frame _ e
  case restart => exact F.ofChecked e (F.timed _ (fun h => F.restartEnds _ (F.frameReceived _ h)) h)
  case configSegmentEnd elapsed bytes dataHigh =>
    refine F.ofChecked e (F.timed _ (fun {s} h => F.choose _ (fun hr => F.segmentEnds bytes dataHigh ?_ h) h) h)
    obtain ⟨stage, ht⟩ := reading_transaction hr
    exact F.loading_of_reading h ht
  case frameGapTimeout => exact F.ofChecked e (F.timed _ (F.gapPasses _ _) h)
  case bodyLengthTooLong => exact F.ofChecked e (F.timed _ (F.lengthTooLong _) h)
  case stretchTimeout elapsed hold =>
    refine F.ofChecked e (F.timed _ (fun {s} h => ?_) h)
    split
    · next ht => exact F.holdFails _ _ _ ht h
    · exact h
  all_goals rw [← next_injective e]
  case powerOnReset => exact F.reset _ s
  case resetInput =>
    split
    · exact h
    · exact F.reset _ s
  case resetEnd straps => exact F.choose _ (fun hr => F.resetEnds straps hr h) h
  case supplyMonitorLow elapsed =>
    split
    · exact F.setSupply _ h
    · exact F.timed _ F.enterBrownOut h
  case supplyMonitorHigh elapsed =>
    split
    · exact F.setSupply _ h
    · exact F.timed (event := supplyRises) _ (F.quietly _ rfl rfl rfl rfl) h
  case buttonInputChange elapsed lane high =>
    split
    · exact F.setButton lane high h
    · exact F.timed _ (F.buttonChanges lane high) h
  all_goals refine F.timed _ (fun {s} h => ?_) h
  case warmUpEnd => exact F.choose _ (fun hd => F.warmUpEnds _ hd h) h
  case configAcknowledgeMissing elapsed dataHigh =>
    refine F.choose _ (fun ha => F.failAttempt dataHigh ?_ h) h
    obtain ⟨stage, ht⟩ := reading_transaction (Bool.and_eq_true_iff.mp ha).1
    exact F.loading_of_reading h ht
  case roundTick elapsed dataHigh =>
    split
    · next tick ht =>
      refine F.choose _ (fun _ => F.takeTick tick dataHigh (F.engine _ ?_ ?_ h)) h
      · exact (F.phases h).reading
      · rw [ht]; rfl
    · exact h
  case converterTransactionComplete =>
    split
    · exact F.nextChannel _ _ (F.recordEnd _ _ h)
    all_goals exact h
  case stretchStop =>
    split
    · next ht => exact F.choose _ (fun _ => F.stretchStops _ _ ht h) h
    all_goals exact h
  case busHeld =>
    split
    · next ht => exact F.choose _ (fun _ => F.busIsHeld _ _ ht h) h
    all_goals exact h
  case busRecoveryComplete =>
    split
    · next ht =>
      split
      · exact F.setStage _ h
      · exact F.stuckAfterRecovery _ _ ht h
    all_goals exact h
  case brownOutEnd => exact F.choose _ (fun _ => F.brownOutEnds _ h) h
  case lineIdle => exact F.choose _ (fun _ => F.line _ h) h
  case lineBusy => exact F.foreignLow _ _ h
  case framingFault => exact F.framingFaultSeen h
  case lineBreak => exact F.breakSeen h
  case attemptBegin => exact F.attemptBegins h
  case frameSent =>
    split
    · exact F.choose _ (fun _ => F.sent h) h
    all_goals exact h
  case collision =>
    split
    · exact F.choose _ (fun _ => F.line _ h) h
    all_goals exact h
  case jamEnd =>
    split
    · exact F.choose _ (fun _ => F.jamOver _ h) h
    all_goals exact h
  case notBeforePassed => exact F.entries _ (fun e => by split <;> exact ⟨rfl, rfl⟩) h
  case stuckMeasurementExpiry =>
    split
    · exact F.choose _ (fun _ => F.checked (F.line _ (F.latched _ (F.line _ h)))) h
    · exact h
  case listenOnlySecondTimer =>
    split
    · exact F.choose _ (fun _ => F.checked (F.line _ (F.line _ h))) h
    · exact h
  case disturbExpiry => exact F.expired h
  case press elapsed lane => exact F.choose _ (fun _ => F.service lane _ rfl rfl h) h
  case release => exact F.choose _ (fun _ => F.releaseTaken _ h) h
  case longPress elapsed lane => exact F.choose _ (fun _ => F.longPressTaken lane (F.service lane _ rfl rfl h)) h
  case refusalFlashEnd elapsed lane => exact F.choose _ (fun _ => F.service lane _ rfl rfl h) h
  case patternOriginAdvance => exact F.originAdvances _ h
  case holdTimerExpiry elapsed lane =>
    exact F.choose _ (fun hs => F.changed lane _ (fun k => k.resumes (by rw [hs.1]; decide) _) h) h
  case reportTimerExpiry =>
    split
    · next ht => exact F.choose _ (fun _ => F.reportsFall ht h) h
    · exact h
  case surveyDelayEnd elapsed lane => exact F.choose _ (fun _ => F.laneReport lane (F.service lane _ rfl rfl h)) h
  case holdoffExpiry => exact F.choose _ (fun _ => F.heldOffEnds h) h
  case sendInhibitExpiry => exact F.choose _ (fun _ => F.inhibit _ h) h
  case entryAged => exact F.ageEntry _ _ h
  case entryForgotten => exact F.forgetEntry _ _ h
  case rateTick =>
    split
    · next ht => exact F.choose _ (fun _ => F.rateTickFalls ht h) h
    · exact h
  case deferenceExpiry g => exact F.onGroup (fun gr hg => F.choose _ (fun hp => F.deferenceExpired g gr hg hp.1 h) h) h
  case repeatExpiry g => exact F.onGroup (fun gr hg => F.choose _ (fun hp => F.repeatRaise g gr hg hp.1 h) h) h
  case watchExpiry g =>
    exact F.onGroup (fun gr hg => F.choose _ (fun hp => F.pendingOrClear g gr hg (by rw [hp.1]; decide) h) h) h
  case takenExpiry g =>
    exact F.onGroup (fun gr hg => F.choose _ (fun hp => F.pendingOrClear g gr hg (by rw [hp.1]; decide) h) h) h
  case joinSurveyOffer =>
    split
    · next hj => exact F.choose _ (fun _ => F.joinSurvey hj h) h
    · exact h
  case joiningEnd =>
    split
    · next hj => exact F.choose _ (fun _ => F.joiningEnds hj h) h
    · exact h
  case readyCharacterReceived => exact F.readyCharacter _ h

/-- Every step keeps the predicate. -/
theorem ofStep (F : SoundFrame P) {t : State} (e : step s = .next t) (h : P s) : P t := by
  unfold step at e
  split at e
  · rw [← next_injective e]; exact h
  · exact F.ofExec _ e (F.pending _ h)

end SoundFrame

end Sys2Proof.Machine
end


section
/-! PROOF. The phases' timers and the lanes: every step keeps them sound. -/

namespace Sys2Proof.Machine

/-- Without a join timer the SURVEY's outcome changes nothing (R175). -/
theorem surveySettled_idle {s : State} (h : s.station.joinTimer = none) : surveySettled s = s := by
  unfold surveySettled State.updateStation
  simp only [h]

/-! ## What the aisle and the line leave of the phases and the lanes -/

/-- A lane that stands as another: its state, its hold timer, its offset and its settling, and a count record that is still at reset. -/
structure Lane.StandsAs (b a : Lane) : Prop where
  state : b.service.state = a.service.state
  holdTimer : b.service.holdTimer = a.service.holdTimer
  motion : b.weighing.motion = a.weighing.motion
  offset : b.counter.offset = a.counter.offset
  counter : a.counter = Counter.reset → b.counter = Counter.reset

theorem Lane.StandsAs.refl (a : Lane) : a.StandsAs a := ⟨rfl, rfl, rfl, rfl, id⟩

theorem Lane.StandsAs.trans {a b c : Lane} (h : c.StandsAs b) (k : b.StandsAs a) : c.StandsAs a :=
  ⟨h.state.trans k.state, h.holdTimer.trans k.holdTimer, h.motion.trans k.motion, h.offset.trans k.offset, h.counter ∘ k.counter⟩

/-- A lane that stands as a sound one is sound. -/
theorem Lane.StandsAs.sound {a b : Lane} {c : LaneSettings} {loaded heldOff : Bool} (h : b.StandsAs a) (k : a.SoundFor c loaded heldOff) :
    b.SoundFor c loaded heldOff where
  holds := by rw [h.state, h.holdTimer]; exact k.holds
  offset := by rw [h.offset]; exact k.offset
  unloaded := fun hl => by
    obtain ⟨hs, hh, hc⟩ := k.unloaded hl
    exact ⟨h.state.trans hs, h.holdTimer.trans hh, h.counter hc⟩
  moving := fun hh => by rw [h.motion]; exact k.moving hh

/-- Two states with the same phase, timers and configuration, whose lanes stand alike and that have the same groups. -/
structure State.StandsAs (t s : State) : Prop where
  config : t.station.config = s.station.config
  phase : t.station.phase = s.station.phase
  warmUpTimer : t.station.warmUpTimer = s.station.warmUpTimer
  joins : t.station.joinTimer.isSome = s.station.joinTimer.isSome
  engine : t.engine = s.engine
  reportTimer : t.reportTimer = s.reportTimer
  rateTick : t.rateTick = s.rateTick
  holdoff : t.shock.holdoff = s.shock.holdoff
  groups : ∀ g, t.group g = none ↔ s.group g = none
  lanes : ∀ l, (t.lane l).StandsAs (s.lane l)

namespace State.StandsAs

variable {s t u : State}

theorem refl (s : State) : s.StandsAs s := ⟨rfl, rfl, rfl, rfl, rfl, rfl, rfl, rfl, fun _ => Iff.rfl, fun _ => .refl _⟩

theorem trans (h : u.StandsAs t) (k : t.StandsAs s) : u.StandsAs s :=
  ⟨h.config.trans k.config, h.phase.trans k.phase, h.warmUpTimer.trans k.warmUpTimer, h.joins.trans k.joins, h.engine.trans k.engine,
    h.reportTimer.trans k.reportTimer, h.rateTick.trans k.rateTick, h.holdoff.trans k.holdoff, fun g => (h.groups g).trans (k.groups g),
    fun l => (h.lanes l).trans (k.lanes l)⟩

/-- A change of Station Control's counters, flags and notes, of the line, the queue, the table, the choices and the waiting commands. -/
theorem of_eq (hs : t.station.config = s.station.config ∧ t.station.phase = s.station.phase
      ∧ t.station.warmUpTimer = s.station.warmUpTimer ∧ t.station.joinTimer.isSome = s.station.joinTimer.isSome)
    (he : t.engine = s.engine) (hr : t.reportTimer = s.reportTimer) (hk : t.rateTick = s.rateTick) (hh : t.shock.holdoff = s.shock.holdoff)
    (hl : t.lanes = s.lanes) (hg : t.groups = s.groups) : t.StandsAs s :=
  ⟨hs.1, hs.2.1, hs.2.2.1, hs.2.2.2, he, hr, hk, hh, fun g => by rw [State.group, State.group, hg],
    fun l => by rw [State.lane, State.lane, hl]; exact .refl _⟩

/-- A change of one lane that leaves how it stands. -/
theorem lane (l : LaneNo) {f : Lane → Lane} (h : (f (s.lane l)).StandsAs (s.lane l)) : (s.updateLane l f).StandsAs s := by
  refine { StandsAs.refl s with lanes := fun m => ?_ }
  rw [State.lane, State.updateLane, Four.get_set]
  split
  · next e => subst e; exact h
  · exact .refl _

theorem group (g : GroupNo) (f : Group → Group) : (s.updateGroup g f).StandsAs s := by
  refine { StandsAs.refl s with groups := fun m => ?_ }
  rw [State.updateGroup_group]
  split
  · next e => subst e; exact Option.map_eq_none_iff
  · exact Iff.rfl

theorem survey (s : State) : (surveySettled s).StandsAs s := by
  cases hj : s.station.joinTimer with
  | none => rw [surveySettled_idle hj]; exact .refl s
  | some j =>
    obtain ⟨k, e⟩ := surveySettled_running hj
    rw [e]
    exact of_eq ⟨rfl, rfl, rfl, by rw [hj]; rfl⟩ rfl rfl rfl rfl rfl rfl

theorem updateEngine (h : t.StandsAs s) (f : Engine → Engine) : (t.updateEngine f).StandsAs (s.updateEngine f) :=
  { h with engine := congrArg f h.engine }

end State.StandsAs

theorem standsAs_free : FreeFrame State.StandsAs where
  refl := .refl
  trans := .trans
  spend := fun _ => .of_eq ⟨rfl, rfl, rfl, rfl⟩ rfl rfl rfl rfl rfl rfl
  coalesced := fun _ _ _ => .of_eq ⟨rfl, rfl, rfl, rfl⟩ rfl rfl rfl rfl rfl rfl
  appended := fun _ _ _ _ => .of_eq ⟨rfl, rfl, rfl, rfl⟩ rfl rfl rfl rfl rfl rfl
  evicted := fun _ _ _ _ _ _ => .of_eq ⟨rfl, rfl, rfl, rfl⟩ rfl rfl rfl rfl rfl rfl
  withdrawn := fun _ _ => .of_eq ⟨rfl, rfl, rfl, rfl⟩ rfl rfl rfl rfl rfl rfl
  counted := fun _ _ _ => .of_eq ⟨rfl, rfl, rfl, rfl⟩ rfl rfl rfl rfl rfl rfl
  reportDue := fun l _ _ => .lane l ⟨rfl, rfl, rfl, rfl, id⟩
  survey := .survey
  group := fun g f _ => .group g f
  queue := fun _ _ => .of_eq ⟨rfl, rfl, rfl, rfl⟩ rfl rfl rfl rfl rfl rfl

theorem standsAs_peers : PeerFrame State.StandsAs where
  toAisleFrame := standsAs_free.toAisleFrame
  peers := fun _ _ => .of_eq ⟨rfl, rfl, rfl, rfl⟩ rfl rfl rfl rfl rfl rfl

theorem standsAs_line : LineFrame State.StandsAs where
  toFreeFrame := standsAs_free
  line := fun _ _ => .of_eq ⟨rfl, rfl, rfl, rfl⟩ rfl rfl rfl rfl rfl rfl
  latched := fun _ _ => .of_eq ⟨rfl, rfl, rfl, rfl⟩ rfl rfl rfl rfl rfl rfl
  noted := fun _ => .of_eq ⟨rfl, rfl, rfl, rfl⟩ rfl rfl rfl rfl rfl rfl

/-- A sent STATUS takes off DRIFT, which is clear in a count record at reset (R181). -/
theorem statusReduction_standsAs (s : State) : (statusReduction s).StandsAs s := by
  unfold statusReduction
  split
  · exact .refl s
  · refine ⟨rfl, rfl, rfl, rfl, rfl, rfl, rfl, rfl, fun _ => Iff.rfl, fun l => ?_⟩
    rw [State.lane, Four.get_of]
    refine ⟨rfl, rfl, rfl, rfl, fun h => ?_⟩
    dsimp only
    rw [show s.lanes.get l = s.lane l from rfl, h]
    rfl

theorem startSending_standsAs (e : Entry) (s : State) : (startSending e s).StandsAs s := by
  unfold startSending
  dsimp only
  split <;> exact .of_eq ⟨rfl, rfl, rfl, rfl⟩ rfl rfl rfl rfl rfl rfl

/-! ## The phases and every lane -/

/-- The phases are sound, and every lane is sound in them. -/
structure LanesSound (s : State) : Prop where
  phases : PhasesSound s
  lanes : ∀ l, (s.lane l).SoundIn s l

theorem PhasesSound.standsAs {s t : State} (h : PhasesSound s) (k : t.StandsAs s) : PhasesSound t where
  configured := by rw [k.config, k.phase]; exact h.configured
  reading := by rw [k.engine, k.phase]; exact h.reading
  warming := by rw [k.warmUpTimer, k.phase]; exact h.warming
  joins := by rw [k.joins, k.phase]; exact h.joins
  ticks := by rw [k.engine, k.config]; exact h.ticks
  reports := by rw [k.reportTimer, k.phase]; exact h.reports
  rates := by rw [k.rateTick, k.phase]; exact h.rates
  ungrouped := fun hn g => (k.groups g).mpr (h.ungrouped (k.config ▸ hn) g)

theorem LanesSound.standsAs {s t : State} (h : LanesSound s) (k : t.StandsAs s) : LanesSound t where
  phases := h.phases.standsAs k
  lanes := fun l => by
    have settings : t.laneSettings l = s.laneSettings l := by unfold State.laneSettings; rw [k.config]
    rw [Lane.SoundIn, settings, k.config, k.holdoff]
    exact (k.lanes l).sound (h.lanes l)

/-- The phases and the lanes are sound exactly where the three statements about them hold. -/
theorem lanesSound_iff (s : State) : LanesSound s ↔ StartUpSound s ∧ LaneRecordsSound s ∧ HoldoffMoving s := by
  have held : s.shock.holdoff.isSome = true ↔ s.shock.holdoff ≠ none := Option.isSome_iff_ne_none
  have unloaded : s.station.config.isSome = false ↔ s.station.config = none := Option.isSome_eq_false_iff.trans Option.isNone_iff_eq_none
  constructor
  · rintro ⟨⟨configured, reading, warming, joins, ticks, reports, rates, ungrouped⟩, lanes⟩
    refine ⟨⟨configured, fun hn l => ?_, reading, warming, joins, ticks, reports, rates⟩, fun l => ⟨(lanes l).holds, (lanes l).offset⟩,
      fun hh l => (lanes l).moving (held.mpr hh)⟩
    obtain ⟨hs, ht, hc⟩ := (lanes l).unloaded (unloaded.mpr hn)
    exact ⟨hs, ht, hc, ungrouped hn l⟩
  · rintro ⟨⟨configured, empty, reading, warming, joins, ticks, reports, rates⟩, records, moving⟩
    refine ⟨⟨configured, reading, warming, joins, ticks, reports, rates, fun hn g => (empty hn g).2.2.2⟩, fun l =>
      ⟨(records l).1, (records l).2, fun hn => ?_, fun hh => moving (held.mp hh) l⟩⟩
    obtain ⟨hs, ht, hc, -⟩ := empty (unloaded.mp hn) l
    exact ⟨hs, ht, hc⟩

/-- The phases after a reset (R169, R178). -/
theorem afterReset_phases (cause : ResetCause) (supplyGood : Bool) (buttons : Four Bool) (choices : Nat) (pending : List Instr) :
    PhasesSound (State.afterReset cause supplyGood buttons choices pending) where
  configured := ⟨fun h => (nomatch h), fun h => by rcases h with h | h <;> cases h⟩
  reading := fun _ h => (nomatch h)
  warming := fun h => (nomatch h)
  joins := ⟨fun h => (nomatch h), fun h => (nomatch h)⟩
  ticks := Iff.rfl
  reports := ⟨fun h => (nomatch h), fun h => (nomatch h)⟩
  rates := ⟨fun h => (nomatch h), fun h => (nomatch h)⟩
  ungrouped := fun _ g => Four.get_all none g

theorem resetPart_lanesSound (cause : ResetCause) (s : State) : LanesSound (resetPart cause s) where
  phases := afterReset_phases ..
  lanes := fun l => by
    rw [resetPart, afterReset_lane]
    exact ⟨⟨fun h => (nomatch h), fun h => (nomatch h)⟩, Nat.le_refl 0, fun _ => ⟨rfl, rfl, rfl⟩, fun h => (nomatch h)⟩

/-! ## The load -/

/-- The lanes of the load: STARTING or OFF without a hold timer, their settling and their count records as they were (R174). -/
theorem Lane.load_sound {c : LaneSettings} {heldOff : Bool} {a : Lane} (settings : LaneSettings) (activeHigh : Bool)
    (hh : a.service.holdTimer = none) (hc : a.counter = Counter.reset) (hm : heldOff = true → a.weighing.motion = .moving) :
    (a.load settings activeHigh).SoundFor c true heldOff where
  holds := by
    unfold Lane.load
    dsimp only
    rw [hh]
    refine ⟨fun h => (nomatch h), fun h => ?_⟩
    split at h <;> cases h
  offset := by
    unfold Lane.load
    rw [hc]
    exact Nat.zero_le _
  unloaded := fun h => (nomatch h)
  moving := hm

/-- The state of the load before its groups are evaluated, with the round timer that ends it (R174). -/
def State.grouped (block : List Byte) (x : Time) (s : State) : State :=
  (formGroups (loadShock block (loadLanes (configurationFrom block) (loadEngine block (loadStation block s))))).updateEngine
    fun e => { e with roundTimer := some x }

/-- The evaluation of the new groups leaves how everything else stands. -/
theorem load_standsAs (block : List Byte) (x : Time) (s : State) :
    ((formAndEvaluate (loadShock block (loadLanes (configurationFrom block) (loadEngine block (loadStation block s))))).updateEngine
      fun e => { e with roundTimer := some x }).StandsAs (s.grouped block x) :=
  (standsAs_free.eachGroup standsAs_free.evaluate _).updateEngine _

/-- The load leaves the phases sound: JOINING, with its timer, the round timer and the configuration (R174). -/
theorem grouped_phases (block : List Byte) (x : Time) {s : State} (hl : s.station.phase = .loading) (h : PhasesSound s) :
    PhasesSound (s.grouped block x) where
  configured := iff_of_true rfl (Or.inl rfl)
  reading := fun _ e => (nomatch e)
  warming := fun e => absurd (hl.symm.trans (h.warming e)) (by decide)
  joins := iff_of_true rfl rfl
  ticks := iff_of_true rfl rfl
  reports := iff_of_false (fun e => absurd (hl.symm.trans (h.reports.mp e)) (by decide)) (fun e => (nomatch e))
  rates := iff_of_false (fun e => absurd (hl.symm.trans (h.rates.mp e)) (by decide)) (fun e => (nomatch e))
  ungrouped := fun e => (nomatch e)

/-- While the configuration is read there is none. -/
theorem PhasesSound.config_loading {s : State} (h : PhasesSound s) (hl : s.station.phase = .loading) : s.station.config = none := by
  cases hc : s.station.config with
  | none => rfl
  | some c => rcases h.configured.mp (by rw [hc]; rfl) with k | k <;> rw [hl] at k <;> cases k

theorem grouped_lanesSound (block : List Byte) (x : Time) {s : State} (hl : s.station.phase = .loading) (h : LanesSound s) :
    LanesSound (s.grouped block x) where
  phases := grouped_phases block x hl h.phases
  lanes := fun l => by
    obtain ⟨-, hh, hc⟩ := (h.lanes l).unloaded (by rw [h.phases.config_loading hl]; rfl)
    have e : (s.grouped block x).lane l
        = (s.lane l).load ((configurationFrom block).lanes.get l) ((configurationFrom block).station.buttonActiveHigh.get l) :=
      Four.get_of _ l
    rw [e]
    exact Lane.load_sound _ _ hh hc (h.lanes l).moving

/-! ## Every step -/

theorem lanesSound_frame : SoundFrame LanesSound where
  phases := LanesSound.phases
  control := fun st en rt ra s hc hs h => ⟨hs, fun l => by
    have settings : State.laneSettings { s with station := st, engine := en, reportTimer := rt, rateTick := ra } l = s.laneSettings l := by
      unfold State.laneSettings
      rw [hc]
    rw [Lane.SoundIn, settings]
    change (s.lane l).SoundFor _ st.config.isSome _
    rw [hc]
    exact h.lanes l⟩
  lanes := fun x s hx h => ⟨h.phases.of_eq rfl rfl rfl rfl rfl, fun l => hx l (h.lanes l)⟩
  inhibit := fun x s h => h.standsAs (.of_eq ⟨rfl, rfl, rfl, rfl⟩ rfl rfl rfl rfl rfl rfl)
  heldOff := fun ends s h => ⟨h.phases.of_eq rfl rfl rfl rfl rfl, fun l => by
    have k := h.lanes l
    rw [State.lane, setHoldoff, State.updateAllWeighing, Four.get_map]
    exact ⟨k.holds, k.offset, k.unloaded, fun _ => rfl⟩⟩
  heldOffEnds := fun {s} h => ⟨h.phases.of_eq rfl rfl rfl rfl rfl, fun l => by
    have k := h.lanes l
    rw [State.lane, holdoffEnds, State.updateAllWeighing, Four.get_map]
    exact ⟨k.holds, k.offset, k.unloaded, fun _ => rfl⟩⟩
  line := fun f s h => h.standsAs (standsAs_line.line f s)
  peers := fun p s h => h.standsAs (standsAs_peers.peers p s)
  spend := fun {s} h => h.standsAs (standsAs_free.spend s)
  pending := fun p s h => h.standsAs (.of_eq ⟨rfl, rfl, rfl, rfl⟩ rfl rfl rfl rfl rfl rfl)
  laneReport := fun l s h => h.standsAs (standsAs_free.laneReport l s)
  laneSettled := fun force l before s h => h.standsAs (standsAs_free.laneSettled force l before s)
  disturb := fun _ _ s h => h.standsAs (standsAs_free.offer _ s)
  status := fun {s} h => h.standsAs (standsAs_free.offer _ s)
  offerSurvey := fun pairs s h => h.standsAs (standsAs_free.offerSurvey pairs s)
  notice := fun before after s h => h.standsAs (standsAs_free.notice before after s)
  groupRateTick := fun g s h => h.standsAs (standsAs_free.groupRateTick g s)
  testClear := fun g s h => h.standsAs (standsAs_free.testClear g s)
  origin := fun g _ s h => h.standsAs (standsAs_free.group g _ s)
  pendingOrClear := fun g _ s _ _ h => h.standsAs (standsAs_free.pendingOrClear g s)
  deferenceExpired := fun g gr s _ _ h => h.standsAs (standsAs_free.deferenceExpired g gr s)
  repeatRaise := fun g _ s _ _ h => h.standsAs (standsAs_free.repeatRaise g s)
  raiseHeard := fun g sender level s h => h.standsAs (standsAs_free.raiseHeard g sender level s)
  clearHeard := fun g sender s h => h.standsAs (standsAs_free.clearHeard g sender s)
  takeHeard := fun g terminal minutes s h => h.standsAs (standsAs_free.takeHeard g terminal minutes s)
  releaseHeard := fun g terminal s h => h.standsAs (standsAs_free.releaseHeard g terminal s)
  checked := fun {s} h => h.standsAs (standsAs_line.checkLineState s)
  start := fun e s h => h.standsAs (startSending_standsAs e s)
  sent := fun {s} h => h.standsAs (standsAs_line.frameIsSent statusReduction_standsAs s)
  jamOver := fun ended s h => h.standsAs (standsAs_line.jamEnds ended s)
  returned := fun {s} h => h.standsAs (standsAs_free.returnEntry id s)
  entries := fun f s _ h => h.standsAs (standsAs_free.queue _ s)
  expired := fun {s} h => h.standsAs (standsAs_free.removeExpired s)
  reset := resetPart_lanesSound
  loaded := fun block x s hl h => (grouped_lanesSound block x hl h).standsAs (load_standsAs block x s)

/-- Settles O58, by the frame of every step for the phases and the lanes together. -/
theorem stepKeepsTheLanesSound : Obligations.StepKeepsTheLanesSound := by
  unfold Obligations.StepKeepsTheLanesSound
  intro s t startUp records moving hstep
  exact (lanesSound_iff t).mp (lanesSound_frame.ofStep hstep ((lanesSound_iff s).mpr ⟨startUp, records, moving⟩))

end Sys2Proof.Machine
end


section
/-! PROOF. The alert records and the RAISEs in the queue: every step keeps them sound. -/

namespace Sys2Proof.Machine

/-! ## RAISEs in the queue -/

/-- A RAISE of the group that is not marked for withdrawal is in the queue. -/
def State.Raising (s : State) (g : GroupNo) : Prop := ∃ e ∈ s.queue, e.body.isRaiseOf g = true ∧ e.withdraw = false

/-- The group is RAISED. -/
def State.Raised (s : State) (g : GroupNo) : Prop := ∃ gr, s.group g = some gr ∧ gr.alert.state = .raised

theorem raisesSound_iff (s : State) : RaisesSound s ↔ ∀ g, s.Raising g → s.Raised g :=
  ⟨fun h g ⟨e, he, hb, hw⟩ => h e he g hb hw, fun h e he g hb hw => h g ⟨e, he, hb, hw⟩⟩

/-- No RAISE of any group comes into the queue, and none loses its mark. -/
def State.RaisesLess (t s : State) : Prop := ∀ g, t.Raising g → s.Raising g

theorem State.RaisesLess.refl (s : State) : s.RaisesLess s := fun _ h => h

theorem State.RaisesLess.trans {s t u : State} (h : u.RaisesLess t) (k : t.RaisesLess s) : u.RaisesLess s := fun g x => k g (h g x)

theorem raisesLess_of_sublist {s : State} {q : List Entry} (h : ∀ e ∈ q, e ∈ s.queue) : State.RaisesLess { s with queue := q } s :=
  fun _ ⟨e, he, hb⟩ => ⟨e, h e he, hb⟩

/-- A change of the entries that keeps their bodies and no mark loses. -/
theorem raisesLess_of_map {s : State} (f : Entry → Entry) (hf : ∀ e, (f e).body = e.body ∧ ((f e).withdraw = false → e.withdraw = false)) :
    State.RaisesLess { s with queue := s.queue.map f } s := fun g ⟨e, he, hb, hw⟩ => by
  obtain ⟨x, hx, rfl⟩ := List.mem_map.mp he
  exact ⟨x, hx, (hf x).1 ▸ hb, (hf x).2 hw⟩

/-- A coalesced entry keeps its mark, and its body is its own or the one offered (R107). -/
theorem coalesce_body (e : Entry) (b : Body) (now : Time) :
    (e.coalesce b now).withdraw = e.withdraw ∧ ((e.coalesce b now).body = b ∨ (e.coalesce b now).body = e.body) := by
  cases b with
  | stock lane article pack count state confidence => exact ⟨rfl, Or.inl rfl⟩
  | survey pairs => exact ⟨rfl, Or.inr rfl⟩
  | disturb zone hold => exact ⟨rfl, Or.inl rfl⟩
  | raise group key mask level quality aggregate reorder => exact ⟨rfl, Or.inl rfl⟩
  | clear group key mask => exact ⟨rfl, Or.inl rfl⟩
  | status => exact ⟨rfl, Or.inr rfl⟩

theorem coalesceInto_raising {b : Body} {s : State} {g : GroupNo}
    (h : State.Raising { s with queue := coalesceInto b s.now s.queue } g) : s.Raising g ∨ b.isRaiseOf g = true := by
  obtain ⟨e, he, hb, hw⟩ := h
  obtain ⟨x, hx, rfl⟩ := List.mem_map.mp he
  split at hb
  · next hc =>
    rw [if_pos hc, (coalesce_body x b s.now).1] at hw
    rcases (coalesce_body x b s.now).2 with k | k <;> rw [k] at hb
    · exact Or.inr hb
    · exact Or.inl ⟨x, hx, hb, hw⟩
  · next hc =>
    rw [if_neg hc] at hw
    exact Or.inl ⟨x, hx, hb, hw⟩

theorem appended_raising {b : Body} {s : State} {q : List Entry} (hq : ∀ e ∈ q, e ∈ s.queue) {g : GroupNo}
    (h : State.Raising { s with queue := q ++ [Entry.new b s.now] } g) : s.Raising g ∨ b.isRaiseOf g = true := by
  obtain ⟨e, he, hb, hw⟩ := h
  rcases List.mem_append.mp he with k | k
  · exact Or.inl ⟨e, hq e k, hb, hw⟩
  · rw [List.mem_singleton.mp k] at hb
    exact Or.inr hb

theorem offerOrRefuse_raising (b : Body) (s : State) {g : GroupNo} (h : (offerOrRefuse b s).2.Raising g) :
    s.Raising g ∨ b.isRaiseOf g = true := by
  unfold offerOrRefuse at h
  split at h
  · exact coalesceInto_raising h
  · split at h
    · exact appended_raising (fun _ k => k) h
    · exact Or.inl h

theorem laneOffer_raises (l : LaneNo) (s : State) : (laneOffer l s).RaisesLess s := fun g h => by
  have k (x : (offerOrRefuse (s.stockBody l) s).2.Raising g) : s.Raising g :=
    (offerOrRefuse_raising _ s x).resolve_right Bool.false_ne_true
  unfold laneOffer at h
  split at h
  · split at h <;> next heq => rw [heq] at k; exact k h
  · exact h

theorem laneReport_raises (l : LaneNo) (s : State) : (laneReport l s).RaisesLess s := laneOffer_raises l _

theorem announceRoom_raises (s : State) : (announceRoom s).RaisesLess s :=
  foldl_relates State.RaisesLess .refl .trans _ (fun s l => laneOffer_raises l s) _ s.spend

theorem tellEvicted_raises (b : Body) (s : State) : (tellEvicted b s).RaisesLess s := by
  cases b with
  | stock lane article pack count state confidence => exact laneReport_raises lane s
  | survey pairs => exact fun _ h => h
  | disturb zone hold => exact .refl s
  | raise group key mask level quality aggregate reorder => exact .refl s
  | clear group key mask => exact .refl s
  | status => exact .refl s

theorem victim_rest {c : Nat} {q : List Entry} {v : Entry} {rest : List Entry} (h : victim c q = some (v, rest)) : ∀ e ∈ rest, e ∈ q := by
  obtain ⟨p, r, hq, hr, -⟩ := victim_splits h
  intro e he
  rw [hr] at he
  rw [hq]
  rcases List.mem_append.mp he with k | k
  · exact List.mem_append_left _ k
  · exact List.mem_append_right _ (List.mem_cons_of_mem v k)

/-- An offer brings in no RAISE but its own (R107, R108). -/
theorem offer_raising (b : Body) (s : State) {g : GroupNo} (h : (offer b s).Raising g) : s.Raising g ∨ b.isRaiseOf g = true := by
  unfold offer at h
  split at h
  · exact coalesceInto_raising h
  · split at h
    · exact appended_raising (fun _ k => k) h
    · split at h
      · next hv => exact appended_raising (victim_rest hv) (tellEvicted_raises _ (State.count .queueEvictions 1 _) _ h)
      · exact Or.inl h

theorem offerSurvey_raises (pairs : List (Word × Word)) (s : State) : (offerSurvey pairs s).RaisesLess s := fun g h => by
  have k (x : (offerOrRefuse (.survey pairs) s).2.Raising g) : s.Raising g :=
    (offerOrRefuse_raising _ s x).resolve_right Bool.false_ne_true
  unfold offerSurvey at h
  split at h <;> next heq => rw [heq] at k; exact k h

theorem markWithdrawn_raises (g : GroupNo) (s : State) : State.RaisesLess { s with queue := markWithdrawn g s.queue } s :=
  raisesLess_of_map _ fun e => by
    split
    · exact ⟨rfl, fun h => (nomatch h)⟩
    · exact ⟨rfl, id⟩

/-- An unmarked RAISE of the group that is left after the marking waits (R109). -/
theorem markWithdrawn_waits {g : GroupNo} {q : List Entry} {e : Entry} (he : e ∈ markWithdrawn g q) (hb : e.body.isRaiseOf g = true)
    (hw : e.withdraw = false) : e.waitingRaise g = true := by
  obtain ⟨x, -, rfl⟩ := List.mem_map.mp he
  unfold Entry.waitingRaise
  split at hb <;> rename_i hx
  · rw [if_pos hx] at hw
    cases hw
  · rw [if_neg hx]
    rw [Bool.and_eq_true, not_and_or] at hx
    rw [hb, Bool.and_true]
    rcases hx with k | k
    · simpa using k
    · exact absurd hb k

/-- A withdrawal brings no RAISE in and leaves none of the group unmarked (R109). -/
theorem withdrawRaise_raises (g : GroupNo) (s : State) : (withdrawRaise g s).RaisesLess s ∧ ¬ (withdrawRaise g s).Raising g := by
  unfold withdrawRaise
  dsimp only
  split
  · refine ⟨(announceRoom_raises _).trans ?_, fun h => ?_⟩
    · refine State.RaisesLess.trans (t := { s with queue := markWithdrawn g s.queue }) ?_ (markWithdrawn_raises g s)
      exact fun _ ⟨e, he, hb⟩ => ⟨e, (List.mem_filter.mp he).1, hb⟩
    · obtain ⟨e, he, hb, hw⟩ := announceRoom_raises _ g h
      obtain ⟨hm, hk⟩ := List.mem_filter.mp he
      rw [markWithdrawn_waits hm hb hw] at hk
      cases hk
  · next hn =>
    refine ⟨markWithdrawn_raises g s, fun ⟨e, he, hb, hw⟩ => ?_⟩
    exact hn (List.any_eq_true.mpr ⟨e, he, markWithdrawn_waits he hb hw⟩)

theorem returnEntry_raises {f : Entry → Entry} (hf : ∀ e, (f e).body = e.body ∧ (f e).withdraw = e.withdraw) (s : State) :
    (returnEntry f s).RaisesLess s := by
  unfold returnEntry
  split
  · exact .refl s
  · split
    · exact (announceRoom_raises _).trans (raisesLess_of_sublist fun _ h => (List.mem_filter.mp h).1)
    · exact raisesLess_of_map _ fun e => by
        split
        · exact ⟨rfl, id⟩
        · exact ⟨(hf e).1, fun h => (hf e).2.symm.trans h⟩

theorem removeExpired_raises (s : State) : (removeExpired s).RaisesLess s := by
  unfold removeExpired
  dsimp only
  split
  · exact (announceRoom_raises _).trans (raisesLess_of_sublist fun _ h => (List.mem_filter.mp h).1)
  · exact .refl s

theorem updateFirst_mem {test : Entry → Bool} {f : Entry → Entry} {q : List Entry} {e : Entry} (h : e ∈ updateFirst test f q) :
    e ∈ q ∨ ∃ x ∈ q, e = f x := by
  induction q with
  | nil => cases h
  | cons a q ih =>
    unfold updateFirst at h
    split at h
    · rcases List.mem_cons.mp h with rfl | k
      · exact Or.inr ⟨a, List.mem_cons_self, rfl⟩
      · exact Or.inl (List.mem_cons_of_mem a k)
    · rcases List.mem_cons.mp h with rfl | k
      · exact Or.inl List.mem_cons_self
      · rcases ih k with k | ⟨x, hx, hf⟩
        · exact Or.inl (List.mem_cons_of_mem a k)
        · exact Or.inr ⟨x, List.mem_cons_of_mem a hx, hf⟩

theorem putOnLine_raises (s : State) : State.RaisesLess { s with queue := putOnLine s.queue } s := fun g ⟨e, he, hb, hw⟩ => by
  dsimp only at he
  unfold putOnLine at he
  split at he
  · exact ⟨e, he, hb, hw⟩
  · rcases updateFirst_mem he with k | ⟨x, hx, rfl⟩
    · exact ⟨e, k, hb, hw⟩
    · exact ⟨x, hx, hb, hw⟩

/-! ## The alert records -/

theorem Alert.sound_withOrigin {before after : Alert} (h : after.Sound) (now : Time) : (Alert.withOrigin before after now).Sound := by
  unfold Alert.withOrigin
  split <;> exact h

theorem Alert.toClear_sound (a : Alert) : a.toClear.Sound := by simp [Alert.Sound, Alert.toClear]

theorem Alert.toPending_sound (ends : Time) (a : Alert) : (a.toPending ends).Sound := by simp [Alert.Sound, Alert.toPending, Alert.toClear]

theorem Alert.toFollowing_sound (raiser : Option Nat) (level : Option Shortage) (ends : Time) (a : Alert) :
    (a.toFollowing raiser level ends).Sound := by simp [Alert.Sound, Alert.toFollowing, Alert.toClear]

theorem Alert.toRaised_sound (level : Option Shortage) (ends : Time) (a : Alert) : (a.toRaised level ends).Sound := by
  simp [Alert.Sound, Alert.toRaised, Alert.toClear]

theorem Alert.toTaken_sound (ends : Time) (terminal : Byte) (a : Alert) : (a.toTaken ends terminal).Sound := by
  simp [Alert.Sound, Alert.toTaken, Alert.toClear]

theorem Alert.toSuspended_sound (a : Alert) : a.toSuspended.Sound := by simp [Alert.Sound, Alert.toSuspended, Alert.toClear]

/-- The alert records are sound, and every group with an unmarked RAISE in the queue, but for the one to be withdrawn next, is RAISED. -/
structure AlertsKept (skip : Option GroupNo) (s : State) : Prop where
  alerts : AlertsSound s
  raises : ∀ g, skip ≠ some g → s.Raising g → s.Raised g

namespace AlertsKept

variable {skip : Option GroupNo} {s t : State} {g : GroupNo}

/-- A change of the queue that brings in no RAISE but of a RAISED group. -/
theorem queued (h : AlertsKept skip s) (hg : t.groups = s.groups) (hq : ∀ g, t.Raising g → s.Raising g ∨ s.Raised g) : AlertsKept skip t := by
  have same (g : GroupNo) : t.group g = s.group g := by rw [State.group, State.group, hg]
  refine ⟨fun g gr k => h.alerts g gr ((same g).symm.trans k), fun g hs k => ?_⟩
  have raised : s.Raised g := (hq g k).elim (h.raises g hs) id
  obtain ⟨gr, hgr, hr⟩ := raised
  exact ⟨gr, (same g).trans hgr, hr⟩

theorem less (h : AlertsKept skip s) (hg : t.groups = s.groups) (hq : t.RaisesLess s) : AlertsKept skip t :=
  h.queued hg fun g k => Or.inl (hq g k)

/-- A change of neither the queue nor the groups. -/
theorem of_eq (h : AlertsKept skip s) (hg : t.groups = s.groups) (hq : t.queue = s.queue) : AlertsKept skip t :=
  h.less hg fun g k => by unfold State.Raising at k ⊢; rw [← hq]; exact k

theorem skipping (h : AlertsKept none s) (g : GroupNo) : AlertsKept (some g) s := ⟨h.alerts, fun i _ => h.raises i (fun e => (nomatch e))⟩

/-- A withdrawal makes up for a group that is no longer RAISED (R109). -/
theorem withdrawn (h : AlertsKept (some g) s) : AlertsKept none (withdrawRaise g s) := by
  have agrees := withdrawRaise_agrees g s
  have kept : AlertsKept (some g) (withdrawRaise g s) := h.less agrees.groups (withdrawRaise_raises g s).1
  refine ⟨kept.alerts, fun i _ k => kept.raises i (fun e => ?_) k⟩
  injection e with e
  subst e
  exact (withdrawRaise_raises g s).2 k

theorem foldl {α : Type} {f : State → α → State} (hf : ∀ s a, AlertsKept skip s → AlertsKept skip (f s a)) (l : List α)
    (h : AlertsKept skip s) : AlertsKept skip (l.foldl f s) :=
  foldl_relates (fun t s => AlertsKept skip s → AlertsKept skip t) (fun _ h => h) (fun h k x => h (k x)) f hf l s h

theorem eachGroup {f : GroupNo → State → State} (hf : ∀ g s, AlertsKept skip s → AlertsKept skip (f g s)) (h : AlertsKept skip s) :
    AlertsKept skip (eachGroup f s) := foldl (fun s g => hf g s) _ (h.of_eq rfl rfl)

theorem onGroup {event : Group → State → State} (h : AlertsKept skip s)
    (he : ∀ gr, s.group g = some gr → AlertsKept skip (event gr s)) : AlertsKept skip (s.onGroup g event) := by
  unfold State.onGroup
  split
  · next gr hg => exact he gr hg
  · exact h

/-- A change of a group's alert record to a sound one, which stays RAISED where it was unless a withdrawal follows. -/
theorem changed {f : Group → Group} (h : AlertsKept skip s)
    (hf : ∀ gr, s.group g = some gr → (f gr).alert.Sound ∧ (skip ≠ some g → gr.alert.state = .raised → (f gr).alert.state = .raised)) :
    AlertsKept skip (s.updateGroup g f) := by
  refine ⟨fun i gr k => ?_, fun i hs k => ?_⟩
  · rw [State.updateGroup_group] at k
    split at k
    · obtain ⟨x, hx, rfl⟩ := Option.map_eq_some_iff.mp k
      exact (hf x hx).1
    · exact h.alerts i gr k
  · obtain ⟨gr, hgr, hr⟩ := h.raises i hs k
    unfold State.Raised
    rw [State.updateGroup_group]
    split
    · next e =>
      subst e
      exact ⟨f gr, by rw [hgr]; rfl, (hf gr hgr).2 hs hr⟩
    · exact ⟨gr, hgr, hr⟩

theorem alert {f : Alert → Alert} (h : AlertsKept skip s)
    (hf : ∀ gr, s.group g = some gr → (f gr.alert).Sound ∧ (skip ≠ some g → gr.alert.state = .raised → (f gr.alert).state = .raised)) :
    AlertsKept skip (s.updateAlert g f) :=
  h.changed fun gr hg => ⟨Alert.sound_withOrigin (hf gr hg).1 _, fun hs hr => (Alert.withOrigin_state _ _ _).trans ((hf gr hg).2 hs hr)⟩

/-- A record that leaves its state while a withdrawal of the group's RAISE is to follow. -/
theorem left {f : Alert → Alert} (h : AlertsKept none s) (hf : ∀ a, (f a).Sound) : AlertsKept (some g) (s.updateAlert g f) :=
  (h.skipping g).alert fun gr _ => ⟨hf gr.alert, fun hs => absurd rfl hs⟩

/-- A record that leaves a state other than RAISED. -/
theorem moved {f : Alert → Alert} {gr : Group} (h : AlertsKept none s) (hg : s.group g = some gr) (hr : gr.alert.state ≠ .raised)
    (hf : ∀ a, (f a).Sound) : AlertsKept none (s.updateAlert g f) :=
  h.alert fun x hx => ⟨hf x.alert, fun _ k => by rw [hg] at hx; injection hx with hx; exact absurd (hx ▸ k) hr⟩

/-- A RAISED record that stays so. -/
theorem stays {f : Alert → Alert} {gr : Group} (h : AlertsKept none s) (hg : s.group g = some gr)
    (hf : (f gr.alert).Sound) (hr : (f gr.alert).state = .raised) : AlertsKept none (s.updateAlert g f) ∧ (s.updateAlert g f).Raised g := by
  refine ⟨h.alert fun x hx => ?_, ⟨{ gr with alert := gr.alert.withOrigin (f gr.alert) s.now }, ?_, ?_⟩⟩
  · rw [hg] at hx
    injection hx with hx
    subst hx
    exact ⟨hf, fun _ _ => hr⟩
  · rw [State.updateAlert, updateGroup_group_self, hg]
    rfl
  · exact (Alert.withOrigin_state _ _ _).trans hr

theorem record {f : GroupRecord → GroupRecord} (h : AlertsKept skip s) : AlertsKept skip (s.updateRecord g f) :=
  h.changed fun gr hg => ⟨h.alerts g gr hg, fun _ hr => hr⟩

/-! ### The Alert Controller -/

theorem enterPending {gr : Group} (h : AlertsKept none s) (hg : s.group g = some gr) (hr : gr.alert.state ≠ .raised) :
    AlertsKept none (enterPending g s) :=
  h.onGroup fun _ _ => AlertsKept.moved (s := (s.draw 64).2) (h.of_eq rfl rfl) hg hr (Alert.toPending_sound _)

theorem enterPending_left (h : AlertsKept none s) : AlertsKept (some g) (Machine.enterPending g s) :=
  (h.skipping g).onGroup fun _ _ => AlertsKept.left (s := (s.draw 64).2) (h.of_eq rfl rfl) (Alert.toPending_sound _)

theorem pendingOrClear {gr : Group} (h : AlertsKept none s) (hg : s.group g = some gr) (hr : gr.alert.state ≠ .raised) :
    AlertsKept none (pendingOrClear g s) :=
  h.onGroup fun x hx => by
    split
    · exact h.enterPending hg hr
    · exact h.moved hg hr Alert.toClear_sound

theorem testClear (h : AlertsKept none s) : AlertsKept none (testClear g s) :=
  h.onGroup fun gr hg => by
    split
    · next hc => exact h.enterPending hg (by rw [show gr.alert.state = .clear by simp at hc; exact hc.1.1]; decide)
    · exact h

theorem offered (h : AlertsKept none s) (b : Body) (hb : b.isRaiseOf g = true → s.Raised g) (ho : ∀ i, i ≠ g → b.isRaiseOf i = false) :
    AlertsKept none (offer b s) :=
  h.queued (offer_agrees b s).groups fun i k => (offer_raising b s k).imp_right fun hi => by
    by_cases e : i = g
    · subst e; exact hb hi
    · rw [ho i e] at hi; cases hi

theorem offerOther (h : AlertsKept none s) (b : Body) (hb : ∀ i, b.isRaiseOf i = false) : AlertsKept none (offer b s) :=
  h.offered (g := 0) b (fun k => by rw [hb] at k; cases k) fun i _ => hb i

theorem offerRaise (h : AlertsKept none s) (hr : s.Raised g) : AlertsKept none (offerRaise g s) :=
  h.onGroup fun _ _ => h.offered (g := g) _ (fun _ => hr) fun _ hi => decide_eq_false (Ne.symm hi)

theorem offerClear (h : AlertsKept none s) : AlertsKept none (offerClear g s) :=
  h.onGroup fun _ _ => h.offerOther _ fun _ => rfl

/-- A RAISED record with a new level or repeat timer. -/
theorem Alert.Sound.raisedAgain {a : Alert} (h : a.Sound) (hr : a.state = .raised) (level : Option Shortage) (ends : Time) :
    Alert.Sound { a with level := level, repeatTimer := some ends } := by
  obtain ⟨hd, -, hw, ht, hn, hm⟩ := h
  exact ⟨hd, iff_of_true rfl hr, hw, ht, hn, hm⟩

theorem raisedReport {gr : Group} (h : AlertsKept none s) (hg : s.group g = some gr) (hr : gr.alert.state = .raised) :
    AlertsKept none (raisedReport g gr s) := by
  unfold Machine.raisedReport
  split
  · exact h
  · split
    · refine withdrawn (left ?_ Alert.toClear_sound)
      split
      · exact h.offerClear
      · exact h
    · split
      · obtain ⟨kept, raised⟩ := h.stays
          (f := fun a => { a with level := gr.record.level.shortage, repeatTimer := some (s.now.addMs s.repeatMs) }) hg
          (Alert.Sound.raisedAgain (h.alerts g gr hg) hr _ _) hr
        exact kept.offerRaise raised
      · exact h

theorem alertReport (h : AlertsKept none s) : AlertsKept none (alertReport g s) :=
  h.onGroup fun gr hg => by
    split
    · exact h.testClear
    · next hs =>
      split
      · exact h
      · exact h.moved hg (by rw [hs]; decide) Alert.toClear_sound
    · next hs => exact h.raisedReport hg hs
    · exact h
    · next hs =>
      split
      · exact h
      · exact h.moved hg (by rw [hs]; decide) Alert.toClear_sound
    · exact h

theorem suspendAlert (h : AlertsKept none s) : AlertsKept none (suspendAlert g s) :=
  h.onGroup fun gr _ => by
    split
    · exact h
    · exact withdrawn (h.left Alert.toSuspended_sound)

theorem resumeAlert (h : AlertsKept none s) : AlertsKept none (resumeAlert g s) :=
  h.onGroup fun gr hg => by
    split
    · next hs => exact (h.moved hg (by rw [hs]; decide) Alert.toClear_sound).testClear
    · exact h

theorem deferenceExpired {gr : Group} (h : AlertsKept none s) (hg : s.group g = some gr) (hr : gr.alert.state = .pending) :
    AlertsKept none (deferenceExpired g gr s) := by
  have other : gr.alert.state ≠ .raised := by rw [hr]; decide
  unfold Machine.deferenceExpired
  split
  · exact h.moved hg other Alert.toClear_sound
  · split
    · exact h.enterPending hg other
    · obtain ⟨kept, raised⟩ := h.stays (f := Alert.toRaised gr.record.level.shortage (s.now.addMs s.repeatMs)) hg
        (Alert.toRaised_sound _ _ _) rfl
      exact kept.offerRaise raised

theorem repeatRaise {gr : Group} (h : AlertsKept none s) (hg : s.group g = some gr) (hr : gr.alert.state = .raised) :
    AlertsKept none (repeatRaise g s) := by
  obtain ⟨kept, raised⟩ := h.stays (f := fun a => { a with repeatTimer := some (s.now.addMs s.repeatMs) }) hg
    (Alert.Sound.raisedAgain (h.alerts g gr hg) hr gr.alert.level _) hr
  exact kept.offerRaise raised

theorem raiseSentOutcome (h : AlertsKept none s) : AlertsKept none (raiseSentOutcome g s) :=
  h.onGroup fun gr hg => by
    split
    · next hs =>
      obtain ⟨hd, hp, hw, ht, hn, -⟩ := h.alerts g gr hg
      exact (h.stays (f := fun a => { a with raiseSent := true }) hg ⟨hd, hp, hw, ht, hn, fun _ => hs⟩ hs).1
    · exact h.offerClear
    all_goals exact h

theorem raiseDiscardedOutcome (h : AlertsKept none s) : AlertsKept none (raiseDiscardedOutcome g s) :=
  h.onGroup fun gr _ => by
    split
    · refine withdrawn ?_
      split
      · exact h.enterPending_left
      · exact h.left Alert.toClear_sound
    · exact h

theorem raiseHeard (h : AlertsKept none s) (sender : Nat) (level : Shortage) : AlertsKept none (raiseHeard g sender level s) :=
  h.onGroup fun gr hg => by
    have follows (raiser : Option Nat) (ends : Time) (hr : gr.alert.state ≠ .raised) :
        AlertsKept none (s.updateAlert g (Alert.toFollowing raiser (some level) ends)) := h.moved hg hr (Alert.toFollowing_sound _ _ _)
    dsimp only
    split
    · next hs => exact follows _ _ (by rw [hs]; decide)
    · next hs => exact follows _ _ (by rw [hs]; decide)
    · next hs => exact follows _ _ (by rw [hs]; decide)
    · exact h
    · exact h
    · next hs =>
      split
      · exact withdrawn (h.left (Alert.toFollowing_sound _ _ _))
      · exact h.repeatRaise hg hs

theorem clearHeard (h : AlertsKept none s) (sender : Nat) : AlertsKept none (clearHeard g sender s) :=
  h.onGroup fun gr hg => by
    split
    · next hs => exact (h.moved hg (by rw [hs.1]; decide) Alert.toClear_sound).testClear
    · exact h

theorem takeHeard (h : AlertsKept none s) (terminal : Byte) (minutes : Nat) : AlertsKept none (takeHeard g terminal minutes s) :=
  h.onGroup fun gr hg => by
    dsimp only
    split
    · exact withdrawn (h.left (Alert.toTaken_sound _ _))
    · exact withdrawn (h.left (Alert.toTaken_sound _ _))
    · exact withdrawn (h.left (Alert.toTaken_sound _ _))
    · next hs =>
      obtain ⟨hd, hp, hw, -, hn, hm⟩ := h.alerts g gr hg
      refine h.alert fun x hx => ?_
      rw [hg] at hx
      injection hx with hx
      subst hx
      exact ⟨⟨hd, hp, hw, iff_of_true rfl hs, hn, hm⟩, fun _ k => k⟩
    · exact h.of_eq rfl rfl
    · exact h.of_eq rfl rfl

theorem releaseHeard (h : AlertsKept none s) (terminal : Byte) : AlertsKept none (releaseHeard g terminal s) :=
  h.onGroup fun gr hg => by
    split
    · next hs => exact h.pendingOrClear hg (by rw [hs.1]; decide)
    · exact h.of_eq rfl rfl

theorem alertListenOnly (h : AlertsKept none s) : AlertsKept none (alertListenOnly g s) :=
  h.onGroup fun gr _ => by
    split
    · exact withdrawn (h.left fun a => Alert.toFollowing_sound _ _ _ a)
    · exact h

/-! ### The Group Evaluator -/

theorem evaluate (h : AlertsKept none s) : AlertsKept none (evaluate g s) :=
  h.onGroup fun gr hg => by
    dsimp only
    have suspension (b a : GroupRecord) {s : State} (h : AlertsKept none s) : AlertsKept none (suspensionReport g b a s) := by
      unfold suspensionReport
      split
      · exact h
      · split
        · exact h.suspendAlert
        · exact h.resumeAlert
    have k := suspension gr.record (gr.record.evaluated (s.holders gr.record.key gr.record.mask))
      (h.record (g := g) (f := fun _ => gr.record.evaluated (s.holders gr.record.key gr.record.mask)))
    unfold levelReport
    split
    · exact k
    · exact k.alertReport

theorem evaluatedWith (h : AlertsKept none s) (moves : Bool) : AlertsKept none (Machine.evaluate g (if moves then setMembership g s else s)) := by
  split
  · exact (h.record).evaluate
  · exact h.evaluate

theorem laneReport (h : AlertsKept skip s) (l : LaneNo) : AlertsKept skip (laneReport l s) :=
  h.less (laneReport_agrees l s).groups (laneReport_raises l s)

theorem groupsTakeLane (h : AlertsKept none s) (l : LaneNo) (before : Lane) : AlertsKept none (groupsTakeLane l before s) := by
  unfold Machine.groupsTakeLane
  dsimp only
  split
  · refine h.eachGroup fun g s h => h.onGroup fun gr _ => ?_
    split
    · exact h.evaluatedWith _
    · exact h
  · exact h

theorem eitherOrder {f g : State → State} (hf : ∀ s, AlertsKept skip s → AlertsKept skip (f s))
    (hg : ∀ s, AlertsKept skip s → AlertsKept skip (g s)) (h : AlertsKept skip s) : AlertsKept skip (inEitherOrder f g s) := by
  have k : AlertsKept skip s.spend := h.of_eq rfl rfl
  unfold inEitherOrder
  split
  · exact hg _ (hf _ k)
  · exact hf _ (hg _ k)

theorem laneSettled (h : AlertsKept none s) (force : Bool) (l : LaneNo) (before : Lane) : AlertsKept none (laneSettled force l before s) := by
  refine eitherOrder (fun s h => ?_) (fun s h => h.groupsTakeLane l before) h
  split
  · exact h.laneReport l
  · exact h

theorem notice (h : AlertsKept none s) (before after : Option PeerEntry) : AlertsKept none (notice before after s) := by
  refine h.eachGroup fun g s h => h.onGroup fun gr _ => ?_
  dsimp only
  split
  · exact h.evaluatedWith _
  · exact h

theorem groupRateTick (h : AlertsKept none s) : AlertsKept none (groupRateTick g s) :=
  (h.changed (f := fun gr => { gr with record := rateUpdate gr }) fun gr hg => ⟨h.alerts g gr hg, fun _ hr => hr⟩).evaluate

/-! ### The line -/

theorem checkLineState (h : AlertsKept none s) : AlertsKept none (checkLineState s) := by
  unfold Machine.checkLineState
  split
  · split
    · exact eachGroup (fun g s h => h.alertListenOnly) (h.of_eq rfl rfl)
    · exact h
  · split
    · exact h.of_eq rfl rfl
    · exact h

theorem line (h : AlertsKept skip s) (f : LineController → LineController) : AlertsKept skip (s.updateLine f) := h.of_eq rfl rfl

theorem announceRoom (h : AlertsKept skip s) : AlertsKept skip (announceRoom s) := h.less (announceRoom_agrees s).groups (announceRoom_raises s)

theorem surveySettled (h : AlertsKept skip s) : AlertsKept skip (surveySettled s) := h.of_eq rfl rfl

theorem statusReduction (h : AlertsKept skip s) : AlertsKept skip (statusReduction s) := by
  unfold Machine.statusReduction
  split
  · exact h
  · exact h.of_eq rfl rfl

theorem tellSent (h : AlertsKept none s) (b : Body) : AlertsKept none (tellSent b s) := by
  cases b with
  | stock lane article pack count state confidence => exact h
  | survey pairs => exact h.surveySettled
  | disturb zone hold => exact h
  | raise group key mask level quality aggregate reorder => exact h.raiseSentOutcome
  | clear group key mask => exact h
  | status => exact h.statusReduction

theorem tellDiscarded (h : AlertsKept none s) (b : Body) : AlertsKept none (tellDiscarded b s) := by
  cases b with
  | stock lane article pack count state confidence => exact h.laneReport lane
  | survey pairs => exact h.surveySettled
  | disturb zone hold => exact h
  | raise group key mask level quality aggregate reorder => exact h.raiseDiscardedOutcome
  | clear group key mask => exact h
  | status => exact h

theorem removeOnLine {tell : State → State} (ht : ∀ s, AlertsKept none s → AlertsKept none (tell s)) (h : AlertsKept none s) :
    AlertsKept none (removeOnLine tell s) :=
  eitherOrder ht (fun _ h => h.announceRoom)
    (h.less (t := { s with queue := dropOnLine s.queue }) rfl (raisesLess_of_sublist fun _ h => (List.mem_filter.mp h).1))

theorem frameIsSent (h : AlertsKept none s) : AlertsKept none (frameIsSent s) := by
  have lowered : AlertsKept none (lowerTec s) := (h.line _).checkLineState
  unfold Machine.frameIsSent
  dsimp only
  split
  · exact lowered.line _
  · refine removeOnLine (fun _ h => h.tellSent _) (line ?_ _)
    unfold countCollisions
    split
    · exact lowered.of_eq rfl rfl
    · split
      · exact lowered.of_eq rfl rfl
      · exact lowered

theorem jamEnds (h : AlertsKept none s) (ended : Time) : AlertsKept none (jamEnds ended s) := by
  have ends : AlertsKept none (endAttempt ended s) := h.line _
  unfold Machine.jamEnds
  split
  · exact ends
  · split
    · have drawn {n : Nat} : AlertsKept none ((endAttempt ended s).draw n).2 := ends.of_eq rfl rfl
      refine drawn.less (returnEntry_agrees _ _).groups ?_
      refine returnEntry_raises ?_ _
      exact fun _ => ⟨rfl, rfl⟩
    · exact eitherOrder (fun _ h => (h.line _).checkLineState) (fun _ h => h.removeOnLine fun _ h => h.tellDiscarded _) (ends.of_eq rfl rfl)

theorem startSending (h : AlertsKept skip s) (e : Entry) : AlertsKept skip (startSending e s) := by
  have kept := h.less (t := { s with queue := putOnLine s.queue }) rfl (putOnLine_raises s)
  unfold Machine.startSending
  dsimp only
  split <;> exact kept.of_eq rfl rfl

/-! ### The load and the resets -/

/-- The load finds no group, so no RAISE is in the queue, and forms the groups in CLEAR (R131, R146). -/
theorem grouped (h : AlertsKept none s) (p : PhasesSound s) (hl : s.station.phase = .loading) (block : List Byte) (x : Time) :
    AlertsKept none (s.grouped block x) := by
  refine ⟨fun g gr k => ?_, fun g hs k => ?_⟩
  · have formed : (s.grouped block x).group g = _ := Four.get_of _ g
    rw [formed] at k
    obtain ⟨l, -, rfl⟩ := Option.map_eq_some_iff.mp k
    simp [Alert.Sound, Alert.new]
  · obtain ⟨gr, hg, -⟩ := h.raises g hs k
    rw [p.ungrouped (p.config_loading hl)] at hg
    cases hg

theorem reset (cause : ResetCause) (s : State) : AlertsKept none (resetPart cause s) := by
  refine ⟨fun g gr k => ?_, fun g _ ⟨e, he, _⟩ => (nomatch he)⟩
  rw [resetPart, afterReset_group] at k
  cases k

end AlertsKept

/-! ## Every step -/

/-- The phases are sound, and so are the alert records and the RAISEs in the queue. -/
structure AlertsHold (s : State) : Prop where
  phases : PhasesSound s
  kept : AlertsKept none s

theorem alertsHold_frame : SoundFrame AlertsHold where
  phases := AlertsHold.phases
  control := fun st en rt ra s hc hs h => ⟨hs, h.kept.of_eq rfl rfl⟩
  lanes := fun x s hx h => ⟨h.phases.of_eq rfl rfl rfl rfl rfl, h.kept.of_eq rfl rfl⟩
  inhibit := fun x s h => ⟨h.phases.of_eq rfl rfl rfl rfl rfl, h.kept.of_eq rfl rfl⟩
  heldOff := fun ends s h => ⟨h.phases.of_eq rfl rfl rfl rfl rfl, h.kept.of_eq rfl rfl⟩
  heldOffEnds := fun {s} h => ⟨h.phases.of_eq rfl rfl rfl rfl rfl, h.kept.of_eq rfl rfl⟩
  line := fun f s h => ⟨h.phases.of_eq rfl rfl rfl rfl rfl, h.kept.line f⟩
  peers := fun p s h => ⟨h.phases.of_eq rfl rfl rfl rfl rfl, h.kept.of_eq rfl rfl⟩
  spend := fun {s} h => ⟨h.phases.of_eq rfl rfl rfl rfl rfl, h.kept.of_eq rfl rfl⟩
  pending := fun p s h => ⟨h.phases.of_eq rfl rfl rfl rfl rfl, h.kept.of_eq rfl rfl⟩
  laneReport := fun l s h => ⟨h.phases.standsAs (standsAs_free.laneReport l s), h.kept.laneReport l⟩
  laneSettled := fun force l before s h =>
    ⟨h.phases.standsAs (standsAs_free.laneSettled force l before s), h.kept.laneSettled force l before⟩
  disturb := fun _ _ s h => ⟨h.phases.standsAs (standsAs_free.offer _ s), h.kept.offerOther _ fun _ => rfl⟩
  status := fun {s} h => ⟨h.phases.standsAs (standsAs_free.offer _ s), h.kept.offerOther _ fun _ => rfl⟩
  offerSurvey := fun pairs s h => ⟨h.phases.standsAs (standsAs_free.offerSurvey pairs s),
    h.kept.less (offerSurvey_agrees pairs s).groups (offerSurvey_raises pairs s)⟩
  notice := fun before after s h => ⟨h.phases.standsAs (standsAs_free.notice before after s), h.kept.notice before after⟩
  groupRateTick := fun g s h => ⟨h.phases.standsAs (standsAs_free.groupRateTick g s), h.kept.groupRateTick⟩
  testClear := fun g s h => ⟨h.phases.standsAs (standsAs_free.testClear g s), h.kept.testClear⟩
  origin := fun g _ s h => ⟨h.phases.standsAs (standsAs_free.group g _ s),
    h.kept.changed fun gr hg => ⟨h.kept.alerts g gr hg, fun _ hr => hr⟩⟩
  pendingOrClear := fun g _ s hg hr h => ⟨h.phases.standsAs (standsAs_free.pendingOrClear g s), h.kept.pendingOrClear hg hr⟩
  deferenceExpired := fun g gr s hg hr h => ⟨h.phases.standsAs (standsAs_free.deferenceExpired g gr s), h.kept.deferenceExpired hg hr⟩
  repeatRaise := fun g _ s hg hr h => ⟨h.phases.standsAs (standsAs_free.repeatRaise g s), h.kept.repeatRaise hg hr⟩
  raiseHeard := fun g sender level s h => ⟨h.phases.standsAs (standsAs_free.raiseHeard g sender level s), h.kept.raiseHeard sender level⟩
  clearHeard := fun g sender s h => ⟨h.phases.standsAs (standsAs_free.clearHeard g sender s), h.kept.clearHeard sender⟩
  takeHeard := fun g terminal minutes s h =>
    ⟨h.phases.standsAs (standsAs_free.takeHeard g terminal minutes s), h.kept.takeHeard terminal minutes⟩
  releaseHeard := fun g terminal s h => ⟨h.phases.standsAs (standsAs_free.releaseHeard g terminal s), h.kept.releaseHeard terminal⟩
  checked := fun {s} h => ⟨h.phases.standsAs (standsAs_line.checkLineState s), h.kept.checkLineState⟩
  start := fun e s h => ⟨h.phases.standsAs (startSending_standsAs e s), h.kept.startSending e⟩
  sent := fun {s} h => ⟨h.phases.standsAs (standsAs_line.frameIsSent statusReduction_standsAs s), h.kept.frameIsSent⟩
  jamOver := fun ended s h => ⟨h.phases.standsAs (standsAs_line.jamEnds ended s), h.kept.jamEnds ended⟩
  returned := fun {s} h => ⟨h.phases.standsAs (standsAs_free.returnEntry id s),
    h.kept.less (returnEntry_agrees id s).groups (returnEntry_raises (fun _ => ⟨rfl, rfl⟩) s)⟩
  entries := fun f s hf h => ⟨h.phases.of_eq rfl rfl rfl rfl rfl,
    h.kept.less rfl (raisesLess_of_map f fun e => ⟨(hf e).1, fun k => (hf e).2.symm.trans k⟩)⟩
  expired := fun {s} h => ⟨h.phases.standsAs (standsAs_free.removeExpired s), h.kept.less (removeExpired_agrees s).groups (removeExpired_raises s)⟩
  reset := fun cause s => ⟨afterReset_phases .., .reset cause s⟩
  loaded := fun block x s hl h => ⟨(grouped_phases block x hl h.phases).standsAs (load_standsAs block x s), by
    have formed : AlertsKept none (formGroups (loadShock block (loadLanes (configurationFrom block) (loadEngine block (loadStation block s))))) :=
      (h.kept.grouped h.phases hl block x).of_eq rfl rfl
    exact (formed.eachGroup fun _ _ h => h.evaluate).of_eq rfl rfl⟩

/-- Settles O59, by the frame of every step for the phases, the alert records and the RAISEs in the queue together. -/
theorem stepKeepsTheAlertsSound : Obligations.StepKeepsTheAlertsSound := by
  unfold Obligations.StepKeepsTheAlertsSound
  rintro s t ⟨configured, empty, reading, warming, joins, ticks, reports, rates⟩ alerts raises hstep
  have phases : PhasesSound s := ⟨configured, reading, warming, joins, ticks, reports, rates, fun hn g => (empty hn g).2.2.2⟩
  have hold : AlertsHold t := alertsHold_frame.ofStep hstep ⟨phases, alerts, fun g _ => (raisesSound_iff s).mp raises g⟩
  exact ⟨hold.kept.alerts, (raisesSound_iff t).mpr fun g => hold.kept.raises g fun e => (nomatch e)⟩

end Sys2Proof.Machine
end


section
/-! PROOF. Commands whose whole effect is one equation: the read, the tick, the holds, the receiver, the buttons and the holdoff. -/

namespace Sys2Proof.Machine

/-- A timed command outside RESET does what its event does after the time, and what follows at once (R92, R99). -/
theorem exec_timed {i : Instr} {e : Nat} {event : State → State} {s u : State} (h : exec i s = .next (timed e event s)) (awake : Awake s)
    (k : event (passTime e s) = u) : exec i s = .next (keepUp u) := by
  rw [h, timed_awake awake, k]

/-- The same for a command whose operands are checked. -/
theorem exec_timed_checked {i : Instr} {ok : Bool} {e : Nat} {event : State → State} {s u : State}
    (h : exec i s = checked ok (timed e event s)) (hok : ok = true) (awake : Awake s) (k : event (passTime e s) = u) :
    exec i s = .next (keepUp u) := by
  rw [h, checked_of_true hok, timed_awake awake, k]

/-! ## The read -/

/-- Settles O6, by the warm-up timer being due after the time. -/
theorem warmUpEndBeginsTheRead : Obligations.WarmUpEndBeginsTheRead := by
  unfold Obligations.WarmUpEndBeginsTheRead
  intro e d s awake hd
  exact exec_timed rfl awake (if_pos hd)

/-- A transaction under way is the one that the read began, in its next stage. -/
theorem setStage_engine {s : State} {user : BusUser} {old : BusStage} (h : s.engine.transaction = some ⟨user, old⟩) (stage : BusStage) :
    setStage stage s = { s with engine := { s.engine with transaction := some ⟨user, stage⟩ } } := by
  unfold setStage State.updateEngine
  simp only [h, Option.map_some]

/-- Settles O7, by the right tag and a segment number below 7. -/
theorem segmentWithRightTagIsKept : Obligations.SegmentWithRightTagIsKept := by
  unfold Obligations.SegmentWithRightTagIsKept
  intro e segment bytes d s awake reading length block hs tag
  obtain ⟨stage, ht⟩ := reading_transaction reading
  refine exec_timed_checked rfl (decide_eq_true length) awake ((if_pos reading).trans ?_)
  have number : (passTime e s).station.block.length / 32 = segment := by
    change s.station.block.length / 32 = segment
    omega
  unfold segmentEnds
  dsimp only
  rw [number, if_neg (by rw [tag]; exact fun h => h rfl), if_pos hs]
  exact setStage_engine (s := (passTime e s).updateStation fun st => { st with block := st.block ++ bytes }) ht _

/-! ## Rounds and holds -/

/-- Settles O11, by the three branches of the tick. -/
theorem roundTickStartsOrOverruns : Obligations.RoundTickStartsOrOverruns := by
  unfold Obligations.RoundTickStartsOrOverruns
  intro e d tick s awake ht due
  have falls {u : State} (k : takeTick tick d (passTime e s) = u) : exec (.roundTick e d) s = .next (keepUp u) := by
    refine exec_timed rfl awake ?_
    rw [passTime_engine, ht]
    exact (if_pos due).trans k
  refine ⟨fun hb hr c rest hc => falls ?_, fun hb hr => falls ?_, fun hb => falls (if_pos hb)⟩
  · refine (if_neg (by rw [passTime_inBrownOut, hb]; exact Bool.false_ne_true)).trans
      ((if_neg (by rw [passTime_engine, hr]; exact Bool.false_ne_true)).trans ?_)
    have first : State.channelsFrom ((passTime e s).updateEngine fun en =>
        { en with roundTimer := some (tick.addUs s.settings.samplePeriodUs) }) 0 = c :: rest := hc
    unfold startRound
    rw [passTime_settings, first]
    rfl
  · exact (if_neg (by rw [passTime_inBrownOut, hb]; exact Bool.false_ne_true)).trans ((if_pos hr).trans rfl)

/-- Settles O12, by the state of the channel. -/
theorem channelHealthFollowsItsTable : Obligations.ChannelHealthFollowsItsTable := by
  unfold Obligations.ChannelHealthFollowsItsTable
  intro c sample
  refine ⟨fun hs => ?_, fun hs hf => ?_, fun hs hf => ?_, fun hs hg => ?_, fun hs hg => ?_⟩ <;>
    simp only [Channel.good, Channel.fail, hs]
  · exact ⟨trivial, trivial⟩
  · simp [hf]
  · simp [hf]
  · simp [show ¬ 3 ≤ c.goodRun by omega]
  · simp [hg]

/-- Settles O15, by the stage of the transaction. -/
theorem holdsAndRecoveries : Obligations.HoldsAndRecoveries := by
  unfold Obligations.HoldsAndRecoveries
  intro e d user since s awake
  refine ⟨fun received ht length held => ?_, fun ht => ?_⟩
  · refine exec_timed_checked rfl (decide_eq_true length) awake ?_
    rw [passTime_engine, ht]
    refine (if_pos held).trans ?_
    cases user with
    | configRead => exact setStage_engine (s := (passTime e s).updateStation fun st => { st with block := st.block ++ received }) ht _
    | channel c => exact setStage_engine (s := passTime e s) ht _
  · refine exec_timed rfl awake ?_
    rw [passTime_engine, ht]
    exact setStage_engine (s := passTime e s) ht _

/-! ## Buttons, flashes, origins and the holdoff -/

/-- An origin of a lane's patterns is moved forward at its moment (R68). -/
theorem advanceOrigin_due {now origin : Time} (h : (origin.addMs 2000).notAfter now = true) : advanceOrigin now origin = origin.addMs 2000 :=
  if_pos h

/-- A command that is on time passes over no origin's moment (R68). -/
theorem Punctual.origin {i : Instr} {s : State} (h : Punctual i s) (awake : Awake s) {origin : Time} (ho : origin ∈ s.origins) :
    (at' (elapsedOf i) s).notAfter (origin.addMs 2000) = true := by
  refine h _ (List.mem_append_right _ ?_)
  unfold State.originMoments
  rw [if_neg awake]
  exact List.mem_map.mpr ⟨origin, ho, rfl⟩

theorem mem_allLanes (l : LaneNo) : l ∈ allLanes := by
  fin_cases l <;> decide

theorem mem_allGroups (g : GroupNo) : g ∈ allGroups := by
  fin_cases g <;> decide

theorem lane_origins (s : State) (l : LaneNo) :
    (s.lane l).service.refuseOrigin ∈ s.origins ∧ (s.lane l).service.holdBeatOrigin ∈ s.origins
      ∧ (s.lane l).service.faultBeatOrigin ∈ s.origins := by
  have mine {t : Time} (h : t ∈ [(s.lane l).service.refuseOrigin, (s.lane l).service.holdBeatOrigin, (s.lane l).service.faultBeatOrigin]) :
      t ∈ s.origins := List.mem_append_left _ (List.mem_flatMap.mpr ⟨l, mem_allLanes l, h⟩)
  exact ⟨mine (by simp), mine (by simp), mine (by simp)⟩

theorem group_origin {s : State} {g : GroupNo} {gr : Group} (h : s.group g = some gr) : gr.alert.origin ∈ s.origins := by
  refine List.mem_append_right _ (List.mem_flatMap.mpr ⟨g, mem_allGroups g, ?_⟩)
  rw [h]
  exact List.mem_singleton.mpr rfl

/-- A change of a lane's service record, with the record it makes. -/
theorem updateService_eq {s : State} {l : LaneNo} {f : Service → Service} {sv : Service} (h : f (s.lane l).service = sv) :
    s.updateService l f = { s with lanes := s.lanes.set l { s.lane l with service := sv } } := by
  rw [← h]
  rfl

/-- What a changed button input asks of the debounce count (R62). -/
theorem buttonChanges_loaded {s : State} {l : LaneNo} {high : Bool} {c : Configuration} (hc : s.station.config = some c)
    (hb : (s.lane l).service.buttonInput ≠ high) :
    buttonChanges l high s = s.updateService l fun sv =>
      { sv with
        buttonInput := high
        debounce := if (high = c.station.buttonActiveHigh.get l ↔ sv.button = .active) then none else some (s.now.addMs 20) } := by
  have asks : (setButton l high s).buttonAsks l = ((setButton l high s).lane l).service.button
      ↔ (high = c.station.buttonActiveHigh.get l ↔ (s.lane l).service.button = .active) := by
    have input : ((setButton l high s).lane l).service = { (s.lane l).service with buttonInput := high } := by
      rw [setButton, updateService_lane, if_pos rfl]
    have settings : (setButton l high s).settings = c.station := by
      change (match s.station.config with | some c => c.station | none => StationSettings.none) = c.station
      rw [hc]
    rw [State.buttonAsks, State.buttonActive, input, settings]
    cases (s.lane l).service.button <;> by_cases h : high = c.station.buttonActiveHigh.get l <;> simp [h]
  have twice (f : Service → Service) : (setButton l high s).updateService l f = s.updateService l fun sv => f { sv with buttonInput := high } := by
    unfold setButton State.updateService State.updateLane
    simp
  have loaded : (setButton l high s).station.config = some c := hc
  unfold buttonChanges startDebounce
  rw [if_neg hb, loaded]
  dsimp only
  split
  · next h =>
    rw [twice]
    unfold State.updateService State.updateLane
    dsimp only
    rw [if_pos (show high = _ ↔ (s.lanes.get l).service.button = .active from asks.mp h)]
  · next h =>
    rw [twice]
    unfold State.updateService State.updateLane
    dsimp only
    rw [if_neg (show ¬ (high = _ ↔ (s.lanes.get l).service.button = .active) from fun k => h (asks.mpr k))]
    rfl

/-- Settles O39, each command by its condition. -/
theorem buttonsFlashesAndOrigins : Obligations.ButtonsFlashesAndOrigins := by
  unfold Obligations.ButtonsFlashesAndOrigins
  intro e l s awake
  refine ⟨fun c high hc hb => ?_, fun hd input button => ?_, fun flash length => ?_, fun due => ?_, fun due => ?_, fun due => ?_,
    fun g gr hg due => ?_, fun i punctual => ?_⟩
  · change Host.Outcome.next (if s.station.phase = .reset then _ else _) = _
    rw [if_neg awake, timed_awake awake, buttonChanges_loaded (s := passTime e s) hc hb]
    rfl
  · refine exec_timed rfl awake ((if_pos ?_).trans rfl)
    have asks : (passTime e s).buttonAsks l = .active := by
      rw [passTime_buttonAsks, State.buttonAsks, State.buttonActive, input]
      simp
    unfold debounced
    rw [asks, passTime_lane, passTime_now, button]
    simp only [decide_true, Bool.and_true, ne_eq, reduceCtorEq, not_false_eq_true]
    exact hd
  · exact exec_timed rfl awake ((if_pos (Bool.and_eq_true_iff.mpr ⟨flash, length⟩)).trans rfl)
  · exact exec_timed rfl awake (updateService_eq (s := passTime e s)
      (f := fun sv => { sv with refuseOrigin := advanceOrigin (at' e s) sv.refuseOrigin }) (by dsimp only [passTime_lane]; rw [advanceOrigin_due due]))
  · exact exec_timed rfl awake (updateService_eq (s := passTime e s)
      (f := fun sv => { sv with holdBeatOrigin := advanceOrigin (at' e s) sv.holdBeatOrigin }) (by dsimp only [passTime_lane]; rw [advanceOrigin_due due]))
  · exact exec_timed rfl awake (updateService_eq (s := passTime e s)
      (f := fun sv => { sv with faultBeatOrigin := advanceOrigin (at' e s) sv.faultBeatOrigin }) (by dsimp only [passTime_lane]; rw [advanceOrigin_due due]))
  · refine exec_timed rfl awake ?_
    change State.updateGroup g _ (passTime e s) = _
    unfold State.updateGroup
    rw [show (passTime e s).groups.get g = some gr from hg, Option.map_some, show (passTime e s).now = at' e s from rfl,
      advanceOrigin_due due]
    rfl
  · obtain ⟨refuse, hold, fault⟩ := lane_origins s l
    exact ⟨punctual.origin awake refuse, punctual.origin awake hold, punctual.origin awake fault,
      fun g gr hg => punctual.origin awake (group_origin hg)⟩

/-- Settles O44, by the two timers. -/
theorem holdoffAndInhibitEnd : Obligations.HoldoffAndInhibitEnd := by
  unfold Obligations.HoldoffAndInhibitEnd
  intro e s awake
  exact ⟨fun hd => exec_timed rfl awake ((if_pos hd).trans rfl), fun hd => exec_timed rfl awake ((if_pos hd).trans rfl)⟩

/-! ## The receiver -/

/-- Settles O19, each command by the receiver's state and the line's use. -/
theorem receiverFollowsTheLine : Obligations.ReceiverFollowsTheLine := by
  unfold Obligations.ReceiverFollowsTheLine
  intro e s awake attempt
  have mayBecomeIdle : s.line.mayBecomeIdle (at' e s) = true
      ↔ (s.line.use = .busyOwn ∨ s.line.use = .busyOther) ∧ IdleComes s.line.lowEnd (at' e s) := by
    unfold LineController.mayBecomeIdle IdleComes
    rw [attempt]
    cases s.line.use <;> simp [LineController.idleFrom, idleUs, bitUs]
  refine ⟨fun busy idle waits => ?_, ?_, ?_, ?_, ?_, ?_, ?_, ?_⟩
  · refine exec_timed rfl awake ((if_pos (mayBecomeIdle.mpr ⟨busy, idle⟩)).trans ?_)
    unfold becomesIdle State.updateLine LineController.idleSince
    simp only [passTime_line, waits]
    rfl
  · rintro busy idle ⟨received, stopEnd, frame⟩
    refine exec_timed rfl awake ((if_pos (mayBecomeIdle.mpr ⟨busy, idle⟩)).trans ?_)
    unfold becomesIdle State.updateLine LineController.idleSince
    simp only [passTime_line, frame]
    rfl
  · exact fun idle => exec_timed rfl awake (if_neg fun h => idle (mayBecomeIdle.mp h).2)
  · intro busy frame i punctual
    refine punctual _ ?_
    have waiting : s.line.idleFrom ∈ State.idleEnds.waiting s := by
      have listening : s.line.receiver.receiving = false := by
        cases h : s.line.receiver with
        | inFrame received stopEnd => exact absurd ⟨received, stopEnd, h⟩ frame
        | waitIdle => rfl
        | ready => rfl
        | readback => rfl
      unfold State.idleEnds.waiting
      rw [attempt, listening, decide_eq_true (show s.station.phase ≠ .reset from awake)]
      exact List.mem_singleton.mpr rfl
    have ends : s.line.idleFrom ∈ s.idleEnds := by
      unfold State.idleEnds
      rcases busy with h | h <;> rw [h] <;> exact waiting
    unfold State.timerEnds
    simp only [List.mem_append]
    tauto
  · refine exec_timed rfl awake ?_
    unfold lowBegins foreignLow
    rw [passTime_line, attempt]
    rfl
  · intro value ready
    refine exec_timed rfl awake ?_
    unfold readyCharacter
    rw [passTime_line, ready]
    rfl
  · intro listens
    refine exec_timed rfl awake ?_
    unfold breakSeen
    rcases listens with ready | ⟨received, stopEnd, frame⟩
    · rw [passTime_line, ready]
      rfl
    · rw [passTime_line, frame]
      rfl
  · intro ready
    refine exec_timed rfl awake ?_
    unfold framingFaultSeen
    rw [passTime_line, ready]
    rfl

end Sys2Proof.Machine
end


section
/-! PROOF. The frames that the station forms, and how every receiver judges them. -/

namespace Sys2Proof.Machine

/-! ## Fields and their bytes -/

theorem number16_bytes (n : Nat) : number16 (BitVec.ofNat 8 (n / 256)) (BitVec.ofNat 8 n) = n % 65536 := by
  unfold number16
  simp only [BitVec.toNat_ofNat]
  omega

theorem number24_bytes (n : Nat) :
    number24 (BitVec.ofNat 8 (n / 65536)) (BitVec.ofNat 8 (n / 256)) (BitVec.ofNat 8 n) = n % 16777216 := by
  unfold number24
  simp only [BitVec.toNat_ofNat]
  omega

/-- Four bytes, most significant first, are the word (00, "Byte order"). -/
theorem word32_bytes (w : Word) : word32 (w.extractLsb' 24 8) (w.extractLsb' 16 8) (w.extractLsb' 8 8) (w.extractLsb' 0 8) = w := by
  unfold word32
  refine BitVec.eq_of_getLsbD_eq fun i hi => ?_
  simp only [BitVec.getLsbD_append, BitVec.getLsbD_extractLsb']
  by_cases h0 : i < 8
  · simp [h0]
  · by_cases h1 : i < 16
    · simp [h0, show i - 8 < 8 by omega, show 8 + (i - 8) = i by omega]
    · by_cases h2 : i < 24
      · simp [h0, show ¬ i - 8 < 8 by omega, show i - 8 - 8 < 8 by omega, show 16 + (i - 8 - 8) = i by omega]
      · simp [h0, show ¬ i - 8 < 8 by omega, show ¬ i - 8 - 8 < 8 by omega, show i - 8 - 8 - 8 < 8 by omega,
          show 24 + (i - 8 - 8 - 8) = i by omega]

/-- The pairs of a SURVEY are read back from their bytes (6.4). -/
theorem surveyPairs_bytes (pairs : List (Word × Word)) :
    surveyPairs (pairs.flatMap fun p => bytes32 p.1 ++ bytes32 p.2) = some pairs := by
  induction pairs with
  | nil => rfl
  | cons p pairs ih =>
    rw [List.flatMap_cons]
    change (surveyPairs (pairs.flatMap fun p => bytes32 p.1 ++ bytes32 p.2)).map _ = _
    rw [ih, Option.map_some, word32_bytes, word32_bytes]

theorem pairsBytes_length (pairs : List (Word × Word)) : (pairs.flatMap fun p => bytes32 p.1 ++ bytes32 p.2).length = 8 * pairs.length := by
  induction pairs with
  | nil => rfl
  | cons p pairs ih =>
    rw [List.flatMap_cons, List.length_append, ih, List.length_cons]
    change 8 + 8 * pairs.length = _
    omega

theorem kindOf_code (k : FrameKind) : kindOf k.code = some k := by
  cases k <;> decide

theorem valuesBytes_length (l : List Nat) : (l.flatMap bytes16).length = 2 * l.length := by
  induction l with
  | nil => rfl
  | cons n l ih =>
    rw [List.flatMap_cons, List.length_append, ih, List.length_cons]
    change 2 + 2 * l.length = _
    omega

theorem statusBytes_length (s : State) : (statusBytes s).length = 40 := by
  unfold statusBytes
  rw [List.length_append, valuesBytes_length]
  rfl

/-- The body that a frame carries is read as the kind and the fields it was formed from (6.4). -/
theorem readBody_bodyBytes (s : State) (b : Body) (h : ∀ pairs, b = .survey pairs → 1 ≤ pairs.length ∧ pairs.length ≤ 4) :
    readBody b.kind (s.bodyBytes b) = some b.carried := by
  cases b with
  | stock lane article pack count state confidence =>
    change some (RxBody.stock _ _ _ _ _ _) = some (RxBody.stock _ _ _ _ _ _)
    rw [number16_bytes, word32_bytes, BitVec.toNat_ofNat, BitVec.toNat_ofNat, Nat.mod_eq_of_lt (by omega : lane.val < 2 ^ 8)]
    cases state <;> cases confidence <;> rfl
  | survey pairs =>
    obtain ⟨h1, h4⟩ := h pairs rfl
    have count : (BitVec.ofNat 8 pairs.length).toNat = pairs.length := by
      rw [BitVec.toNat_ofNat]
      exact Nat.mod_eq_of_lt (by omega)
    change (if _ then _ else _) = _
    rw [count, if_pos ⟨h1, h4, pairsBytes_length pairs⟩, surveyPairs_bytes]
    rfl
  | disturb zone hold =>
    change some (RxBody.disturb _ _) = some (RxBody.disturb _ _)
    rw [BitVec.toNat_ofNat]
  | raise group key mask level quality aggregate reorder =>
    change some (RxBody.raise _ _ _ _ _ _) = some (RxBody.raise _ _ _ _ _ _)
    rw [number16_bytes, number24_bytes, word32_bytes, word32_bytes]
    rcases level with _ | (_ | _) <;> cases quality <;> rfl
  | clear group key mask =>
    change some (RxBody.clear _ _) = some (RxBody.clear _ _)
    rw [word32_bytes, word32_bytes]
  | status =>
    change (if (statusBytes s).length = 40 then some RxBody.status else none) = _
    rw [if_pos (statusBytes_length s)]
    rfl

/-- A body is at most 40 bytes long (R84). -/
theorem bodyBytes_length (s : State) (b : Body) (h : ∀ pairs, b = .survey pairs → 1 ≤ pairs.length ∧ pairs.length ≤ 4) :
    (s.bodyBytes b).length ≤ 40 := by
  cases b with
  | stock lane article pack count state confidence => exact Nat.le_of_ble_eq_true rfl
  | survey pairs =>
    obtain ⟨h1, h4⟩ := h pairs rfl
    change (_ :: _).length ≤ 40
    rw [List.length_cons, pairsBytes_length]
    omega
  | disturb zone hold => exact Nat.le_of_ble_eq_true rfl
  | raise group key mask level quality aggregate reorder => exact Nat.le_of_ble_eq_true rfl
  | clear group key mask => exact Nat.le_of_ble_eq_true rfl
  | status => exact Nat.le_of_eq (statusBytes_length s)

/-! ## The judgement -/

/-- A frame whose body can be read is judged good (R88). -/
theorem judge_frameChars {sender : Nat} (hs : sender < 256) {kind : FrameKind} {body : List Byte} (hb : body.length ≤ 40) {read : RxBody}
    (hr : readBody kind body = some read) : judge (frameChars sender kind body).tail = .good sender read := by
  have length : (BitVec.ofNat 8 body.length).toNat = body.length := by
    rw [BitVec.toNat_ofNat]
    exact Nat.mod_eq_of_lt (by omega)
  have number : (BitVec.ofNat 8 sender).toNat = sender := by
    rw [BitVec.toNat_ofNat]
    exact Nat.mod_eq_of_lt hs
  have rest (w : BitVec 16) : (body ++ checkChars w).length = body.length + 2 := List.length_append
  unfold frameChars judge
  simp only [List.tail_cons, List.cons_append, length, rest, hb, and_self, if_true, List.take_left, List.drop_left, kindOf_code, hr, number]

/-- Settles O54, by reading back what the frame was formed from. -/
theorem formedFrameIsJudgedGood : Obligations.FormedFrameIsJudgedGood := by
  unfold Obligations.FormedFrameIsJudgedGood
  intro s b h
  refine ⟨rfl, ?_, judge_frameChars (by have := s.station.number.isLt; unfold State.number; omega) (bodyBytes_length s b h) (readBody_bodyBytes s b h)⟩
  unfold State.frameOf frameChars
  dsimp only
  have check (w : BitVec 16) : (checkChars w).length = 2 := rfl
  simp only [List.cons_append, List.length_cons, List.length_append, check]
  omega

end Sys2Proof.Machine
end


section
/-! PROOF. What the blocks compute: the loaded fields, the settlement, the weights and the settling. -/

namespace Sys2Proof.Machine

/-! ## Rounding -/

/-- The division of the model rounds to the nearest integer, halves away from zero (00, "Rounding"). -/
theorem roundedQuotient_rounds (a : Int) {b : Nat} (hb : 0 < b) : RoundsTo a b (roundedQuotient a b) := by
  obtain ⟨q, hq⟩ : ∃ q, (2 * a.natAbs + b) / (2 * b) = q := ⟨_, rfl⟩
  have lower : 2 * (b * q) ≤ 2 * a.natAbs + b := by
    have := Nat.div_mul_le_self (2 * a.natAbs + b) (2 * b)
    rw [hq] at this
    calc 2 * (b * q) = q * (2 * b) := by ring
      _ ≤ _ := this
  have upper : 2 * a.natAbs + b < 2 * (b * q) + 2 * b := by
    have := Nat.lt_div_mul_add (a := 2 * a.natAbs + b) (b := 2 * b) (by omega)
    rw [hq] at this
    calc 2 * a.natAbs + b < q * (2 * b) + 2 * b := this
      _ = _ := by ring
  have value : (b : Int) * roundedQuotient a b = if a < 0 then -((b * q : Nat) : Int) else ((b * q : Nat) : Int) := by
    unfold roundedQuotient
    rw [hq]
    split <;> push_cast <;> ring
  have size : (b : Int) * |roundedQuotient a b| = ((b * q : Nat) : Int) := by
    unfold roundedQuotient
    rw [hq]
    split <;> simp
  unfold RoundsTo
  rw [value, size, Int.abs_eq_natAbs, Int.abs_eq_natAbs]
  generalize b * q = p at lower upper
  split <;> omega

/-! ## The settlement -/

/-- The count before the clamp is the nearest number of units (R40). -/
theorem unclampedCount_eq (c : LaneSettings) (net : Int) :
    unclampedCount c net = if net < 0 then 0 else (2 * net.toNat + c.unitWeight) / (2 * c.unitWeight) := by
  unfold unclampedCount roundedQuotient
  split
  · rfl
  · rw [show net.natAbs = net.toNat by omega, Int.toNat_natCast]

theorem zeroTracks_iff (c : LaneSettings) (countBefore : Nat) (net : Int) :
    zeroTracks c countBefore net = true ↔ countBefore = 0 ∧ candidateCount c net = 0 ∧ net ≠ 0 ∧ net.natAbs ≤ c.band := by
  unfold zeroTracks
  simp [and_assoc]

theorem countedConfidence_eq (c : LaneSettings) (net : Int) :
    countedConfidence c net = if unclampedCount c net ≤ 65535
      ∧ (net - candidateCount c net * c.unitWeight).natAbs ≤ c.band + candidateCount c net * c.tolerance then .sure else .doubtful := by
  unfold countedConfidence withinAllowance
  simp only [decide_eq_true_eq]
  split
  · next h => rw [if_neg (by omega)]
  · next h =>
    split
    · next k => rw [if_pos ⟨by omega, k⟩]
    · next k => rw [if_neg fun x => k x.2]

/-- Settles O50, by the order of the judgements and by whether zero tracking applies. -/
theorem settlementIsJudgedInOrder : Obligations.SettlementIsJudgedInOrder := by
  unfold Obligations.SettlementIsJudgedInOrder
  intro c before level isOver
  dsimp only
  set net : Int := level - c.tare - before.offset with hnet
  have overload : isOverload c net isOver = true ↔ isOver = true ∨ (c.capacityKg : Int) * 1000 < net := by
    unfold isOverload
    simp
  have underload : isUnderload c net = true ↔ net < -(c.band : Int) := decide_eq_true_iff
  have overloaded (h : isOverload c net isOver = true) : settlement c before level isOver
      = ⟨{ before with overload := true, underload := false, confidence := .doubtful }, 0, false⟩ := by
    unfold settlement netWeight
    rw [← hnet]
    exact if_pos h
  have underloaded (h : ¬ isOverload c net isOver = true) (k : isUnderload c net = true) : (settlement c before level isOver).counter
      = { before with overload := false, underload := true, count := 0, confidence := .doubtful } := by
    unfold settlement netWeight
    rw [← hnet]
    dsimp only
    rw [if_neg h, if_pos k]
  have counted (h : ¬ isOverload c net isOver = true) (k : ¬ isUnderload c net = true) : (settlement c before level isOver).counter
      = (countedSettlement c before net).1 := by
    unfold settlement netWeight
    rw [← hnet]
    dsimp only
    rw [if_neg h, if_neg k]
  have candidate : candidateCount c net
      = if net < 0 then 0 else min ((2 * net.toNat + c.unitWeight) / (2 * c.unitWeight)) 65535 := by
    unfold candidateCount
    rw [unclampedCount_eq]
    split <;> rfl
  refine ⟨fun h => by rw [overloaded (overload.mpr h)], fun ho hc hu => underloaded (by rw [overload]; rintro (k | k); rw [ho] at k; cases k; omega) (underload.mpr hu),
    fun ho hc hu => ?_, ?_⟩
  · rw [counted (by rw [overload]; rintro (k | k); rw [ho] at k; cases k; omega) (by rw [underload]; omega)]
    by_cases tracks : zeroTracks c before.count net = true
    · obtain ⟨hb, hk, hn, hband⟩ := (zeroTracks_iff c before.count net).mp tracks
      have excluded {p : Prop} (h : before.count ≠ 0 ∨ (0 : Nat) ≠ 0 ∨ net = 0 ∨ c.band < net.natAbs) : p := by
        rcases h with h | h | h | h
        · exact absurd hb h
        · exact absurd rfl h
        · exact absurd h hn
        · omega
      unfold countedSettlement
      dsimp only
      rw [if_pos tracks]
      split
      · next hz =>
        exact ⟨rfl, rfl, hk.symm.trans candidate, fun h => excluded h, fun _ _ _ _ _ => ⟨rfl, rfl⟩, fun _ _ _ _ hz' => by omega,
          fun h => excluded h⟩
      · next hz =>
        exact ⟨rfl, rfl, hk.symm.trans candidate, fun h => excluded h, fun _ _ _ _ hz' => absurd hz' hz, fun _ _ _ _ _ => ⟨rfl, rfl, rfl⟩,
          fun h => excluded h⟩
    · have not : before.count = 0 → net ≠ 0 → candidateCount c net = 0 → net.natAbs ≤ c.band → False := fun hb hn hk hband =>
        tracks ((zeroTracks_iff c before.count net).mpr ⟨hb, hk, hn, hband⟩)
      unfold countedSettlement
      dsimp only
      rw [if_neg tracks]
      refine ⟨rfl, rfl, candidate, fun _ => ?_, fun hb hn hk hband => (not hb hn hk hband).elim, fun hb hn hk hband => (not hb hn hk hband).elim,
        fun _ => ⟨rfl, rfl⟩⟩
      have fits : unclampedCount c net ≤ 65535 ↔ net < 0 ∨ (2 * net.toNat + c.unitWeight) / (2 * c.unitWeight) ≤ 65535 := by
        rw [unclampedCount_eq]
        split
        · next h => exact iff_of_true (by omega) (Or.inl h)
        · next h => exact ⟨Or.inr, fun k => k.resolve_left h⟩
      dsimp only
      rw [countedConfidence_eq]
      simp only [fits]
  · by_cases h : isOverload c net isOver = true
    · rw [overloaded h, if_pos (Or.inr (overload.mp h))]
    · have amount : (settlement c before level isOver).amount = pickAndPut before (settlement c before level isOver).counter := by
        unfold settlement netWeight
        rw [← hnet]
        dsimp only
        rw [if_neg h]
        split <;> rfl
      rw [amount]
      unfold pickAndPut
      refine if_congr ⟨Or.inl, fun k => k.resolve_right fun x => h (overload.mpr x)⟩ rfl rfl

/-! ## Weights, shocks and settling -/

theorem channelWeight_rounds (c : Channel) (sample : Sample) :
    ∃ w : Int, RoundsTo ((sample.raw - c.zero) * c.gain) 65536 w ∧ (channelWeight c sample).grams = max (-8388607) (min w 8388607)
      ∧ ((channelWeight c sample).isOver = true ↔ w < -8388607 ∨ 8388607 < w ∨ sample.isOver = true) := by
  refine ⟨unclampedWeight sample.raw c.zero c.gain, roundedQuotient_rounds _ (by decide), ?_⟩
  unfold channelWeight
  dsimp only
  generalize unclampedWeight sample.raw c.zero c.gain = w
  split
  · next h => exact ⟨by dsimp only; omega, iff_of_true rfl (Or.inl h)⟩
  · next h =>
    split
    · next k => exact ⟨by dsimp only; omega, iff_of_true rfl (Or.inr (Or.inl k))⟩
    · next k =>
      refine ⟨by dsimp only; omega, fun x => Or.inr (Or.inr x), ?_⟩
      rintro (x | x | x)
      · exact absurd x h
      · exact absurd x k
      · exact x

theorem isShock_iff (k : Nat) (previous : Option Int) (gross : Int) :
    isShock k previous gross = true ↔ k ≠ 0 ∧ ∃ p, previous = some p ∧ (k : Int) * 1000 < |gross - p| := by
  unfold isShock
  cases previous with
  | none => simp
  | some p =>
    simp only [Bool.and_eq_true, decide_eq_true_eq, Option.some.injEq, exists_eq_left', Int.abs_eq_natAbs]
    refine and_congr_right fun _ => ?_
    omega

/-- The filter window with a new sample: the newest of the old one and the sample (R24). -/
theorem newest_append {α : Type} {n : Nat} (hn : 0 < n) (l : List α) (a : α) :
    newest n (l ++ [a]) = l.drop (l.length + 1 - n) ++ [a] := by
  unfold newest
  rw [List.length_append, List.length_singleton, List.drop_append_of_le_length (by omega)]

theorem filteredValue_full {depth : Nat} (hd : 0 < depth) {window : List Weight} (h : window.length = depth) :
    ∃ f, filteredValue depth window = some f ∧ RoundsTo (window.map Weight.grams).sum depth f.grams
      ∧ (f.isOver = true ↔ ∃ x ∈ window, x.isOver = true) :=
  ⟨_, if_pos h, roundedQuotient_rounds _ hd, List.any_eq_true⟩

theorem withinBand_iff (band : Nat) (values : List Int) :
    withinBand band values = true ↔ ∀ a ∈ values, ∀ b ∈ values, a - b ≤ (band : Int) := by
  unfold withinBand
  simp [List.all_eq_true]

/-- The settling test of a MOVING lane (R26, R27). -/
theorem settlingTest_moving {size band : Nat} {f : Weight} {w : Weighing} (h : w.motion = .moving) :
    (settlingTest size band f w).1.window = newest size (w.window ++ [f.grams])
      ∧ ((settlingTest size band f w).2 = true ↔
        (newest size (w.window ++ [f.grams])).length = size
          ∧ ∀ a ∈ newest size (w.window ++ [f.grams]), ∀ b ∈ newest size (w.window ++ [f.grams]), a - b ≤ (band : Int))
      ∧ ((settlingTest size band f w).2 = true →
        (settlingTest size band f w).1.motion = .settled f.grams ∧ (settlingTest size band f w).1.settledOver = f.isOver) := by
  have settles : windowSettles size band (newest size (w.window ++ [f.grams])) = true ↔ _ :=
    Bool.and_eq_true_iff.trans (and_congr decide_eq_true_iff (withinBand_iff band _))
  unfold settlingTest pushWindow
  rw [h]
  dsimp only
  split
  · next k => exact ⟨rfl, iff_of_true rfl (settles.mp k), fun _ => ⟨rfl, rfl⟩⟩
  · next k => exact ⟨rfl, iff_of_false Bool.false_ne_true fun x => k (settles.mpr x), fun x => (nomatch x)⟩

/-- The settling test of a SETTLED lane (R28). -/
theorem settlingTest_settled {size band : Nat} {f : Weight} {w : Weighing} {level : Int} (h : w.motion = .settled level) :
    (settlingTest size band f w).2 = false ∧ ((f.grams - level).natAbs ≤ band → (settlingTest size band f w).1 = w)
      ∧ (band < (f.grams - level).natAbs → (settlingTest size band f w).1 = { w with motion := .moving, window := [f.grams] }) := by
  unfold settlingTest
  rw [h]
  dsimp only
  split
  · next k => exact ⟨rfl, fun _ => rfl, fun x => absurd k (by omega)⟩
  · next k => exact ⟨rfl, fun x => absurd x k, fun _ => rfl⟩

/-- Settles O51, by the rounded division, the newest samples and the two motion states. -/
theorem weightShockAndSettling : Obligations.WeightShockAndSettling := by
  unfold Obligations.WeightShockAndSettling
  refine ⟨channelWeight_rounds, isShock_iff, fun depth g window hd => ⟨fun h => ?_, fun h => newest_append hd window g, fun h => if_neg h,
    fun h => filteredValue_full hd h⟩, fun size band f w hs => ⟨settlingTest_moving, fun level => settlingTest_settled⟩⟩
  unfold pushFilter
  rw [newest_append hd, show window.length + 1 - depth = 0 by omega, List.drop_zero]

/-! ## The loaded fields -/

theorem clampTo_nearest {low high : Nat} (h : low ≤ high) (n : Nat) : NearestIn low high n (clampTo low high n) := by
  unfold NearestIn clampTo
  omega

theorem clampDepth_nearest (n : Nat) :
    clampDepth n ∈ [1, 2, 4, 8, 16] ∧ (n = 0 → clampDepth n = 1) ∧ (16 < n → clampDepth n = 16)
      ∧ (1 ≤ n → n ≤ 16 → clampDepth n ≤ n ∧ n < 2 * clampDepth n) := by
  unfold clampDepth
  split
  · exact ⟨by decide, fun _ => rfl, fun _ => by omega, fun _ _ => by omega⟩
  · split
    · exact ⟨by decide, fun _ => by omega, fun _ => by omega, fun _ _ => by omega⟩
    · split
      · exact ⟨by decide, fun _ => by omega, fun _ => by omega, fun _ _ => by omega⟩
      · split
        · exact ⟨by decide, fun _ => by omega, fun _ => by omega, fun _ _ => by omega⟩
        · exact ⟨by decide, fun _ => by omega, fun _ => rfl, fun _ _ => by omega⟩

theorem LaneFields.mem_run (f : LaneFields) (c : Nat) : c ∈ f.run ↔ f.firstChannel ≤ c ∧ c < f.firstChannel + f.channelCount := by
  unfold LaneFields.run
  rw [List.mem_map]
  constructor
  · rintro ⟨i, hi, rfl⟩
    rw [List.mem_range] at hi
    omega
  · exact fun ⟨h1, h2⟩ => ⟨c - f.firstChannel, List.mem_range.mpr (by omega), by omega⟩

theorem LaneFields.mem_keptRun (f : LaneFields) (taken : List Nat) (c : Nat) : c ∈ f.keptRun taken ↔ c ∈ f.run ∧ c ≤ 7 ∧ c ∉ taken := by
  unfold LaneFields.keptRun
  simp [List.mem_filter]

/-- A channel in the run of an enabled lane of the block, after clamping (R172, R173). -/
theorem mem_loadedRun (block : List Byte) (m : LaneNo) (c : Nat) :
    ((loadedLane block m).enable = true ∧ c ∈ (loadedLane block m).run) ↔ InRun block m c :=
  and_congr_right fun _ => LaneFields.mem_run (loadedLane block m) c

/-- The channels that some lanes take are those of their runs, up to channel 7 (R173). -/
theorem mem_taken (fields : LaneNo → LaneFields) (lanes : List LaneNo) (taken : List Nat) (c : Nat) :
    c ∈ lanes.foldl (fun taken m => if (fields m).enable then taken ++ (fields m).keptRun taken else taken) taken
      ↔ c ∈ taken ∨ c ≤ 7 ∧ ∃ m ∈ lanes, (fields m).enable = true ∧ c ∈ (fields m).run := by
  induction lanes generalizing taken with
  | nil => simp
  | cons m lanes ih =>
    rw [List.foldl_cons, ih]
    by_cases he : (fields m).enable = true
    · rw [if_pos he, List.mem_append, LaneFields.mem_keptRun]
      constructor
      · rintro ((h | ⟨hr, h7, -⟩) | ⟨h7, k, hk, hx⟩)
        · exact Or.inl h
        · exact Or.inr ⟨h7, m, List.mem_cons_self, he, hr⟩
        · exact Or.inr ⟨h7, k, List.mem_cons_of_mem m hk, hx⟩
      · rintro (h | ⟨h7, k, hk, hx⟩)
        · exact Or.inl (Or.inl h)
        · rcases List.mem_cons.mp hk with rfl | hk
          · by_cases ht : c ∈ taken
            · exact Or.inl (Or.inl ht)
            · exact Or.inl (Or.inr ⟨hx.2, h7, ht⟩)
          · exact Or.inr ⟨h7, k, hk, hx⟩
    · rw [if_neg he]
      refine or_congr_right (and_congr_right fun _ => ⟨fun ⟨k, hk, hx⟩ => ⟨k, List.mem_cons_of_mem m hk, hx⟩, fun ⟨k, hk, hx⟩ => ?_⟩)
      rcases List.mem_cons.mp hk with rfl | hk
      · exact absurd hx.1 he
      · exact ⟨k, hk, hx⟩

theorem mem_takenBelow (block : List Byte) (l : LaneNo) (c : Nat) :
    c ∈ takenBelow (loadedLane block) allLanes l ↔ c ≤ 7 ∧ ∃ m, m < l ∧ InRun block m c := by
  unfold takenBelow
  rw [mem_taken]
  simp only [List.not_mem_nil, false_or, List.mem_filter, mem_allLanes, true_and, decide_eq_true_eq, mem_loadedRun]

theorem mem_channelSet (block : List Byte) (l : LaneNo) (c : Nat) :
    c ∈ channelSet (loadedLane block) l ↔ InRun block l c ∧ c ≤ 7 ∧ ∀ m, m < l → ¬ InRun block m c := by
  unfold channelSet
  rw [← mem_loadedRun]
  split
  · next he =>
    rw [LaneFields.mem_keptRun, mem_takenBelow]
    constructor
    · exact fun ⟨hr, h7, ht⟩ => ⟨⟨he, hr⟩, h7, fun m hm hx => ht ⟨h7, m, hm, hx⟩⟩
    · exact fun ⟨⟨_, hr⟩, h7, hn⟩ => ⟨hr, h7, fun ⟨_, m, hm, hx⟩ => hn m hm hx⟩
  · next he => exact iff_of_false List.not_mem_nil fun h => he h.1.1

theorem mem_weighingChannels (address : ChannelNo → Nat) (set : List Nat) (h7 : ∀ n ∈ set, n ≤ 7) (c : ChannelNo) :
    c ∈ weighingChannels address set ↔ c.val ∈ set ∧ address c ≠ 0 := by
  unfold weighingChannels
  rw [List.mem_filter, decide_eq_true_iff, List.mem_map]
  refine and_congr_left fun _ => ⟨?_, fun h => ⟨c.val, h, Fin.ext (Nat.mod_eq_of_lt c.isLt)⟩⟩
  rintro ⟨n, hn, rfl⟩
  rwa [show (Fin.ofNat 8 n).val = n from Nat.mod_eq_of_lt (Nat.lt_succ_of_le (h7 n hn))]

/-- The weighing channels of a lane as loaded (R173). -/
theorem mem_laneChannels (block : List Byte) (l : LaneNo) (c : ChannelNo) :
    c ∈ (laneSettingsFrom block l).channels ↔ WeighsWith block l c := by
  have low : ∀ n ∈ channelSet (loadedLane block) l, n ≤ 7 := fun n hn => ((mem_channelSet block l n).mp hn).2.1
  unfold laneSettingsFrom WeighsWith
  rw [mem_weighingChannels _ _ low, mem_channelSet]
  constructor
  · exact fun ⟨⟨hr, _, hn⟩, ha⟩ => ⟨hr, ha, hn⟩
  · exact fun ⟨hr, ha, hn⟩ => ⟨⟨hr, by omega, hn⟩, ha⟩

/-- Settles O10, field by field, with the channel sets as they are settled from the lowest lane on. -/
theorem loadedFieldsAreLegal : Obligations.LoadedFieldsAreLegal := by
  unfold Obligations.LoadedFieldsAreLegal
  intro block
  have nearest {low high : Nat} (h : low ≤ high) (n : Nat) : NearestIn low high n (clampTo low high n) := clampTo_nearest h n
  refine ⟨⟨nearest (by omega) _, ?_, nearest (by omega) _, nearest (by omega) _, nearest (by omega) _, nearest (by omega) _,
    nearest (by omega) _, nearest (by omega) _, nearest (by omega) _, rfl⟩, clampDepth_nearest _,
    fun c => ⟨nearest (by omega) _, nearest (by omega) _, rfl, rfl⟩,
    fun l => ⟨nearest (by omega) _, nearest (by omega) _, nearest (by omega) _, nearest (by omega) _, nearest (by omega) _,
      rfl, rfl, rfl, rfl, rfl, rfl, rfl, rfl, rfl, rfl, mem_laneChannels block l⟩⟩
  change decide (clampTo 0 1 (readStation block).speedCode = 1) = true ↔ _
  rw [decide_eq_true_iff]
  unfold clampTo
  omega

end Sys2Proof.Machine
end


section
/-! PROOF. The lamps: the precedence of their patterns, the lane's own group, and the origins. -/

namespace Sys2Proof.Machine

/-! ## The group with a key and a mask -/

theorem groupTest_iff (s : State) (test : GroupRecord → Bool) (g : GroupNo) :
    s.groupTest test g = true ↔ ∃ gr, s.group g = some gr ∧ test gr.record = true := by
  unfold State.groupTest
  split
  · next gr hg => simp [hg]
  · next hg => simp [hg]

/-- The groups before a group are those of lower number. -/
theorem allGroups_split (g : GroupNo) : ∃ before after, allGroups = before ++ g :: after ∧ ∀ m ∈ before, m < g := by
  fin_cases g
  · exact ⟨[], [1, 2, 3], rfl, by decide⟩
  · exact ⟨[0], [2, 3], rfl, by decide⟩
  · exact ⟨[0, 1], [3], rfl, by decide⟩
  · exact ⟨[0, 1, 2], [], rfl, by decide⟩

/-- Group `g` has this key and mask. -/
def State.Same (s : State) (key mask : Word) (g : GroupNo) (gr : Group) : Prop :=
  s.group g = some gr ∧ gr.record.key = key ∧ gr.record.mask = mask

theorem sameTest_iff (s : State) (key mask : Word) (g : GroupNo) :
    s.groupTest (fun r => r.key == key && r.mask == mask) g = true ↔ ∃ gr, s.Same key mask g gr := by
  rw [groupTest_iff]
  simp [State.Same]

/-- The first group with the key and mask is the one found (00, "Masks and matching"). -/
theorem findGroup_first {s : State} {key mask : Word} {g : GroupNo} {gr : Group} (h : s.Same key mask g gr)
    (first : ∀ m, m < g → ∀ other, ¬ s.Same key mask m other) : s.findGroup key mask = some g := by
  obtain ⟨before, after, hl, hb⟩ := allGroups_split g
  refine List.find?_eq_some_iff_append.mpr ⟨(sameTest_iff s key mask g).mpr ⟨gr, h⟩, before, after, hl, fun m hm => ?_⟩
  rw [Bool.not_eq_true']
  refine Bool.eq_false_iff.mpr fun k => ?_
  obtain ⟨other, ho⟩ := (sameTest_iff s key mask m).mp k
  exact first m (hb m hm) other ho

theorem findGroup_none {s : State} {key mask : Word} (h : ∀ g gr, ¬ s.Same key mask g gr) : s.findGroup key mask = none := by
  refine List.find?_eq_none.mpr fun g _ k => ?_
  obtain ⟨gr, hg⟩ := (sameTest_iff s key mask g).mp k
  exact h g gr hg

/-! ## The precedence (R70, R71) -/

/-- The pattern of a lane in JOINING and RUNNING is its own (R71). -/
theorem lampPattern_loaded {s : State} (h : s.station.phase = .joining ∨ s.station.phase = .running) (l : LaneNo) :
    s.lampPattern l = s.lanePattern l := by
  unfold State.lampPattern
  rcases h with h | h <;> rw [h]

theorem lampPattern_off {s : State} {l : LaneNo} (h : s.station.phase = .joining ∨ s.station.phase = .running)
    (hs : (s.lane l).service.state = .off) : s.lampPattern l = .dark := by
  rw [lampPattern_loaded h]
  exact if_pos hs

theorem lampPattern_fault {s : State} {l : LaneNo} (h : s.station.phase = .joining ∨ s.station.phase = .running)
    (hs : (s.lane l).service.state = .fault) : s.lampPattern l = .faultBeat := by
  rw [lampPattern_loaded h]
  unfold State.lanePattern
  dsimp only
  rw [if_neg (by rw [hs]; decide), if_pos hs]

theorem lampPattern_flash {s : State} {l : LaneNo} (h : s.station.phase = .joining ∨ s.station.phase = .running)
    (h0 : (s.lane l).service.state ≠ .off) (h5 : (s.lane l).service.state ≠ .fault) (hf : (s.lane l).service.flash = true) :
    s.lampPattern l = .refuse := by
  rw [lampPattern_loaded h]
  unfold State.lanePattern
  dsimp only
  rw [if_neg h0, if_neg h5, if_pos hf]

theorem lampPattern_hold {s : State} {l : LaneNo} (h : s.station.phase = .joining ∨ s.station.phase = .running)
    (hs : (s.lane l).service.state = .held ∨ (s.lane l).service.state = .resuming) (hf : (s.lane l).service.flash = false) :
    s.lampPattern l = .holdBeat := by
  rw [lampPattern_loaded h]
  unfold State.lanePattern
  dsimp only
  rw [if_neg (by rcases hs with k | k <;> rw [k] <;> decide), if_neg (by rcases hs with k | k <;> rw [k] <;> decide),
    if_neg (by rw [hf]; exact Bool.false_ne_true), if_pos hs]

theorem lampPattern_serves {s : State} {l : LaneNo} (h : s.station.phase = .joining ∨ s.station.phase = .running)
    (hs : (s.lane l).service.state = .starting ∨ (s.lane l).service.state = .inService) (hf : (s.lane l).service.flash = false) :
    s.lampPattern l = s.groupPattern l := by
  rw [lampPattern_loaded h]
  unfold State.lanePattern
  dsimp only
  rw [if_neg (by rcases hs with k | k <;> rw [k] <;> decide), if_neg (by rcases hs with k | k <;> rw [k] <;> decide),
    if_neg (by rw [hf]; exact Bool.false_ne_true), if_neg (by rcases hs with k | k <;> rw [k] <;> decide)]

/-! ## The origins (R68) -/

theorem lampOrigin_fault {s : State} {l : LaneNo} (h : s.lampPattern l = .faultBeat) :
    s.lampOrigin l = (s.lane l).service.faultBeatOrigin := by
  unfold State.lampOrigin
  rw [h]

theorem lampOrigin_hold {s : State} {l : LaneNo} (h : s.lampPattern l = .holdBeat) :
    s.lampOrigin l = (s.lane l).service.holdBeatOrigin := by
  unfold State.lampOrigin
  rw [h]

theorem lampOrigin_refuse {s : State} {l : LaneNo} (h : s.lampPattern l = .refuse) :
    s.lampOrigin l = (s.lane l).service.refuseOrigin := by
  unfold State.lampOrigin
  rw [h]

theorem lampOrigin_group {s : State} {l : LaneNo} {gr : Group} (h : s.lampPattern l = .fast ∨ s.lampPattern l = .slow)
    (hg : (s.ownGroup l).bind s.group = some gr) : s.lampOrigin l = gr.alert.origin := by
  unfold State.lampOrigin
  rcases h with h | h <;> rw [h] <;> dsimp only <;> rw [hg]

/-- The pattern origin after a change of an alert record (10.1). -/
theorem updateAlert_origin {s : State} {g : GroupNo} {gr : Group} (hg : s.group g = some gr) (f : Alert → Alert) :
    (((f gr.alert).pattern = .fast ∨ (f gr.alert).pattern = .slow) ∧ (f gr.alert).pattern ≠ gr.alert.pattern →
        (s.updateAlert g f).group g = some { gr with alert := { f gr.alert with origin := s.now } })
      ∧ (¬ (((f gr.alert).pattern = .fast ∨ (f gr.alert).pattern = .slow) ∧ (f gr.alert).pattern ≠ gr.alert.pattern) →
        (s.updateAlert g f).group g = some { gr with alert := f gr.alert }) := by
  rw [updateAlert_group hg]
  unfold Alert.withOrigin
  exact ⟨fun h => by rw [if_pos h], fun h => by rw [if_neg h]⟩

/-- Settles O53, by the phase, the lane's state and the flash. -/
theorem lampPrecedence : Obligations.LampPrecedence := by
  unfold Obligations.LampPrecedence
  refine ⟨fun s l => ?_, fun a => ?_, fun s g gr f hg => updateAlert_origin hg f⟩
  · refine ⟨fun h => ?_, fun h => ?_, fun h => ⟨lampPattern_off h, fun hs => ?_, fun h0 h5 hf => ?_, fun hs hf => ?_, fun hs hf => ⟨?_, ?_⟩⟩⟩
    · have pattern : s.lampPattern l = .faultBeat := by
        unfold State.lampPattern
        rw [h]
      exact ⟨pattern, lampOrigin_fault pattern⟩
    · unfold State.lampPattern
      rcases h with h | h | h <;> rw [h]
    · exact ⟨lampPattern_fault h hs, lampOrigin_fault (lampPattern_fault h hs)⟩
    · exact ⟨lampPattern_flash h h0 h5 hf, lampOrigin_refuse (lampPattern_flash h h0 h5 hf)⟩
    · exact ⟨lampPattern_hold h hs hf, lampOrigin_hold (lampPattern_hold h hs hf)⟩
    · intro g gr own first
      have found : (s.ownGroup l).bind s.group = some gr := by
        rw [State.ownGroup, findGroup_first own first]
        exact own.1
      have pattern : s.lampPattern l = gr.alert.pattern := by
        rw [lampPattern_serves h hs hf, State.groupPattern, found]
      exact ⟨pattern, fun k => lampOrigin_group (by rw [pattern]; exact k) found⟩
    · intro none
      rw [lampPattern_serves h hs hf, State.groupPattern, State.ownGroup, findGroup_none none]
      rfl
  · refine ⟨fun hs => ⟨fun hl => ?_, fun hl => ?_⟩, fun hs => ?_, fun hs => ?_⟩ <;> unfold Alert.pattern
    · rcases hs with hs | hs <;> rw [hs, hl]
    · rcases hs with hs | hs <;> rw [hs, hl]
    · rw [hs]
    · rcases hs with hs | hs | hs <;> rw [hs]

end Sys2Proof.Machine
end


section
/-! PROOF. The Transmit Queue: what an offer and a withdrawal do to its entries, and the STATUS that a QUERY asks for. -/

namespace Sys2Proof.Machine

/-! ## The entries and the passing of time (R92) -/

/-- An entry with its busy-seen mark perhaps changed. -/
def Entry.SameBut (y x : Entry) : Prop := ∃ b, y = { x with busySeen := b }

namespace Entry.SameBut

variable {x y : Entry}

theorem refl (x : Entry) : x.SameBut x := ⟨_, rfl⟩

theorem body (h : y.SameBut x) : y.body = x.body := by obtain ⟨b, rfl⟩ := h; rfl
theorem waiting (h : y.SameBut x) : y.waiting = x.waiting := by obtain ⟨b, rfl⟩ := h; rfl
theorem withdraw (h : y.SameBut x) : y.withdraw = x.withdraw := by obtain ⟨b, rfl⟩ := h; rfl
theorem enqueued (h : y.SameBut x) : y.enqueued = x.enqueued := by obtain ⟨b, rfl⟩ := h; rfl
theorem attempts (h : y.SameBut x) : y.attempts = x.attempts := by obtain ⟨b, rfl⟩ := h; rfl
theorem notBefore (h : y.SameBut x) : y.notBefore = x.notBefore := by obtain ⟨b, rfl⟩ := h; rfl
theorem status (h : y.SameBut x) : y.status = x.status := by obtain ⟨b, rfl⟩ := h; rfl
theorem unmarked (h : y.SameBut x) : ({ y with busySeen := false } : Entry) = { x with busySeen := false } := by
  obtain ⟨b, rfl⟩ := h
  rfl

end Entry.SameBut

/-- The entries of the queue after some time, or after what follows at once, are those before it but for their marks. -/
def Remarked (p q : List Entry) : Prop := ∃ f : Entry → Entry, (∀ x, (f x).SameBut x) ∧ p = q.map f

theorem markBusySeen_remarked (t : Time) (q : List Entry) : Remarked (markBusySeen t q) q :=
  ⟨_, fun x => by split <;> exact ⟨_, rfl⟩, rfl⟩

theorem Remarked.refl (q : List Entry) : Remarked q q := ⟨id, Entry.SameBut.refl, (List.map_id q).symm⟩

theorem passTime_remarked (e : Nat) (s : State) : Remarked (passTime e s).queue s.queue := by
  unfold passTime
  dsimp only
  split
  · exact markBusySeen_remarked _ _
  · exact .refl _

theorem keepUp_remarked (s : State) : Remarked (keepUp s).queue s.queue := by
  unfold keepUp
  dsimp only
  split
  · exact markBusySeen_remarked _ _
  · exact .refl _

namespace Remarked

variable {p q : List Entry}

theorem mem (h : Remarked p q) {x : Entry} (hx : x ∈ q) : ∃ y ∈ p, y.SameBut x := by
  obtain ⟨f, hf, rfl⟩ := h
  exact ⟨f x, List.mem_map_of_mem hx, hf x⟩

theorem mem_inv (h : Remarked p q) {y : Entry} (hy : y ∈ p) : ∃ x ∈ q, y.SameBut x := by
  obtain ⟨f, hf, rfl⟩ := h
  obtain ⟨x, hx, rfl⟩ := List.mem_map.mp hy
  exact ⟨x, hx, hf x⟩

theorem length (h : Remarked p q) : p.length = q.length := by
  obtain ⟨f, -, rfl⟩ := h
  exact List.length_map f

theorem unmarked (h : Remarked p q) : unmarked p = unmarked q := by
  obtain ⟨f, hf, rfl⟩ := h
  unfold Machine.unmarked
  rw [List.map_map]
  exact List.map_congr_left fun x _ => (hf x).unmarked

theorem any (h : Remarked p q) (test : Entry → Bool) (ht : ∀ x y : Entry, y.SameBut x → test y = test x) : p.any test = q.any test := by
  obtain ⟨f, hf, rfl⟩ := h
  rw [List.any_map]
  exact congrArg q.any (funext fun x => ht x (f x) (hf x))

theorem waitsFor (h : Remarked p q) (i : Identity) : (p.any fun x => x.waitsFor i) = q.any fun x => x.waitsFor i :=
  h.any _ fun x y k => by rw [Entry.waitsFor, Entry.waitsFor, k.waiting, k.body]

end Remarked

/-- The ON LINE entry is the one of the unmarked queue. -/
theorem Remarked.onLineEntry {p q : List Entry} (h : Remarked p q) :
    (onLineEntry q = none → onLineEntry p = none) ∧ ∀ x, onLineEntry q = some x → ∃ y, onLineEntry p = some y ∧ y.SameBut x := by
  obtain ⟨f, hf, rfl⟩ := h
  have e : Machine.onLineEntry (q.map f) = (Machine.onLineEntry q).map f := by
    unfold Machine.onLineEntry
    rw [List.find?_map]
    congr 2
    funext x
    exact congrArg _ (hf x).waiting
  refine ⟨fun h => by rw [e, h]; rfl, fun x h => ⟨f x, by rw [e, h]; rfl, hf x⟩⟩

/-! ## What the lanes' reports leave of the other entries -/

/-- The entries of the other owners are the same. -/
def SameButStock (t s : State) : Prop := ∀ x : Entry, (∀ l, x.body.identity ≠ .stock l) → (x ∈ t.queue ↔ x ∈ s.queue)

theorem SameButStock.refl (s : State) : SameButStock s s := fun _ _ => Iff.rfl

theorem SameButStock.trans {u t s : State} (h : SameButStock u t) (k : SameButStock t s) : SameButStock u s :=
  fun x hx => (h x hx).trans (k x hx)

theorem coalesce_identity {x : Entry} {b : Body} {now : Time} (h : x.waitsFor b.identity = true) :
    (x.coalesce b now).body.identity = b.identity ∧ x.body.identity = b.identity := by
  have hi : x.body.identity = b.identity := by
    simp only [Entry.waitsFor, Bool.and_eq_true, decide_eq_true_eq] at h
    exact h.2
  refine ⟨?_, hi⟩
  rcases (coalesce_body x b now).2 with k | k <;> rw [k]
  exact hi

/-- An offer that coalesces leaves the entries of every other identity (R107). -/
theorem mem_coalesceInto {b : Body} {now : Time} {q : List Entry} {x : Entry} (hx : x.body.identity ≠ b.identity) :
    x ∈ coalesceInto b now q ↔ x ∈ q := by
  unfold coalesceInto
  rw [List.mem_map]
  constructor
  · rintro ⟨y, hy, rfl⟩
    split at hx
    · next h => exact absurd (coalesce_identity h).1 hx
    · next h => rwa [if_neg h]
  · intro h
    refine ⟨x, h, if_neg fun k => hx ?_⟩
    simp only [Entry.waitsFor, Bool.and_eq_true, decide_eq_true_eq] at k
    exact k.2

theorem mem_append_new {b : Body} {now : Time} {q : List Entry} {x : Entry} (hx : x.body.identity ≠ b.identity) :
    x ∈ q ++ [Entry.new b now] ↔ x ∈ q := by
  rw [List.mem_append, List.mem_singleton]
  refine ⟨fun h => h.resolve_right fun e => hx ?_, Or.inl⟩
  rw [e]
  rfl

theorem offerOrRefuse_mem (b : Body) (s : State) {x : Entry} (hx : x.body.identity ≠ b.identity) :
    x ∈ (offerOrRefuse b s).2.queue ↔ x ∈ s.queue := by
  unfold offerOrRefuse
  split
  · exact mem_coalesceInto hx
  · split
    · exact mem_append_new hx
    · exact Iff.rfl

theorem laneOffer_sameButStock (l : LaneNo) (s : State) : SameButStock (laneOffer l s) s := fun x hx => by
  have k := offerOrRefuse_mem (s.stockBody l) s (hx l)
  unfold laneOffer
  split
  · split <;> next heq => rw [heq] at k; exact k
  · exact Iff.rfl

theorem laneReport_sameButStock (l : LaneNo) (s : State) : SameButStock (laneReport l s) s := laneOffer_sameButStock l _

theorem announceRoom_sameButStock (s : State) : SameButStock (announceRoom s) s :=
  foldl_relates SameButStock .refl .trans _ (fun s l => laneOffer_sameButStock l s) _ s.spend

theorem tellEvicted_sameButStock (b : Body) (s : State) : SameButStock (tellEvicted b s) s := by
  cases b with
  | stock lane article pack count state confidence => exact laneReport_sameButStock lane s
  | survey pairs => exact .refl _
  | disturb zone hold => exact .refl s
  | raise group key mask level quality aggregate reorder => exact .refl s
  | clear group key mask => exact .refl s
  | status => exact .refl s

/-! ## Offers (R107, R108) -/

theorem waitsFor_iff (x : Entry) (i : Identity) : x.waitsFor i = true ↔ x.waiting = true ∧ x.body.identity = i := by
  unfold Entry.waitsFor
  rw [Bool.and_eq_true, decide_eq_true_iff]

theorem any_waitsFor_iff (q : List Entry) (i : Identity) :
    (q.any fun x => x.waitsFor i) = true ↔ ∃ x ∈ q, x.waiting = true ∧ x.body.identity = i := by
  simp only [List.any_eq_true, waitsFor_iff]

theorem offer_coalesces {b : Body} {s : State} (h : (s.queue.any fun x => x.waitsFor b.identity) = true) :
    offer b s = { s with queue := coalesceInto b s.now s.queue } := if_pos h

theorem offer_appends {b : Body} {s : State} (h : (s.queue.any fun x => x.waitsFor b.identity) = false) (hl : s.queue.length < 8) :
    offer b s = { s with queue := s.queue ++ [Entry.new b s.now] } := by
  unfold offer
  rw [if_neg (by rw [h]; exact Bool.false_ne_true), if_pos hl]

theorem offer_evicts {b : Body} {s : State} (h : (s.queue.any fun x => x.waitsFor b.identity) = false) (hl : 8 ≤ s.queue.length)
    {out : Entry} {rest : List Entry} (hv : victim b.priority s.queue = some (out, rest)) :
    offer b s = tellEvicted out.body (State.count .queueEvictions 1 { s with queue := rest ++ [Entry.new b s.now] }) := by
  unfold offer
  rw [if_neg (by rw [h]; exact Bool.false_ne_true), if_neg (by omega), hv]

theorem offer_refused {b : Body} {s : State} (h : (s.queue.any fun x => x.waitsFor b.identity) = false) (hl : 8 ≤ s.queue.length)
    (hv : victim b.priority s.queue = none) : offer b s = s.count .queueRefusals 1 := by
  unfold offer
  rw [if_neg (by rw [h]; exact Bool.false_ne_true), if_neg (by omega), hv]

theorem takeLast_none {α : Type} {test : α → Bool} {l : List α} (h : ∀ x ∈ l, test x = false) : takeLast test l = none := by
  induction l with
  | nil => rfl
  | cons a l ih =>
    unfold takeLast
    rw [ih fun x hx => h x (List.mem_cons_of_mem a hx), h a List.mem_cons_self]
    rfl

theorem takeLast_isSome {α : Type} {test : α → Bool} {l : List α} {x : α} (hx : x ∈ l) (ht : test x = true) :
    (takeLast test l).isSome = true := by
  induction l with
  | nil => cases hx
  | cons a l ih =>
    unfold takeLast
    split
    · rfl
    · next hn =>
      rcases List.mem_cons.mp hx with rfl | hx
      · rw [if_pos ht]; rfl
      · have := ih hx
        rw [hn] at this
        cases this

/-- The last item that passes the test, and what is left without it. -/
theorem takeLast_last {α : Type} {test : α → Bool} {before after : List α} {x : α} (hx : test x = true)
    (h : ∀ y ∈ after, test y = false) : takeLast test (before ++ x :: after) = some (x, before ++ after) := by
  induction before with
  | nil =>
    change takeLast test (x :: after) = _
    unfold takeLast
    rw [takeLast_none h, if_pos hx]
    rfl
  | cons a before ih =>
    rw [List.cons_append]
    unfold takeLast
    rw [ih]
    rfl

theorem priority_le (b : Body) : b.priority ≤ 3 := by
  cases b <;> exact Nat.le_of_ble_eq_true rfl

/-- No WAITING entry of a worse class gives way to an offer (R108). -/
theorem victim_none {c : Nat} {q : List Entry} (h : ∀ x ∈ q, x.waiting = true → x.body.priority ≤ c) : victim c q = none := by
  have none (k : Nat) : (if c < k then takeLast (fun e => e.waiting && decide (e.body.priority = k)) q else none) = none := by
    split
    · next hk =>
      refine takeLast_none fun x hx => ?_
      cases hw : x.waiting with
      | false => rfl
      | true =>
        have := h x hx hw
        simp only [Bool.true_and, decide_eq_false_iff_not]
        omega
    · rfl
  unfold victim
  simp only [List.findSome?_cons, none, List.findSome?_nil]

/-- With a WAITING entry of a worse class some entry gives way to an offer (R108). -/
theorem victim_isSome {c : Nat} {q : List Entry} {x : Entry} (hx : x ∈ q) (hw : x.waiting = true) (hc : c < x.body.priority) :
    ∃ out rest, victim c q = some (out, rest) := by
  have k3 := priority_le x.body
  have found : (if c < x.body.priority then takeLast (fun e => e.waiting && decide (e.body.priority = x.body.priority)) q else none).isSome
      = true := by
    rw [if_pos hc]
    exact takeLast_isSome hx (by simp [hw])
  have listed : x.body.priority ∈ [3, 2, 1] := by
    simp only [List.mem_cons, List.not_mem_nil, or_false]
    omega
  have some : (victim c q).isSome = true := by
    unfold victim
    exact List.findSome?_isSome_iff.mpr ⟨_, listed, found⟩
  obtain ⟨⟨out, rest⟩, h⟩ := Option.isSome_iff_exists.mp some
  exact ⟨out, rest, h⟩

/-- An offer of a RAISE or a CLEAR that finds a place waits in the queue as offered (R107, R108). -/
theorem offer_waits {b : Body} {s : State} (h0 : b.priority = 0) (hp : HasPlace b.identity s.queue)
    (hc : ∀ (x : Entry) (now : Time), (x.coalesce b now) = { x with body := b }) (hn : ∀ l, b.identity ≠ .stock l) :
    ∃ x ∈ (offer b s).queue, x.waiting = true ∧ x.body = b := by
  cases hw : (s.queue.any fun x => x.waitsFor b.identity) with
  | true =>
    obtain ⟨x, hx, hm⟩ := List.any_eq_true.mp hw
    rw [offer_coalesces hw]
    refine ⟨{ x with body := b }, ?_, ((waitsFor_iff x _).mp hm).1, rfl⟩
    exact List.mem_map.mpr ⟨x, hx, by rw [if_pos hm, hc]⟩
  | false =>
    rcases Nat.lt_or_ge s.queue.length 8 with hl | hl
    · rw [offer_appends hw hl]
      exact ⟨Entry.new b s.now, List.mem_append_right _ (List.mem_singleton.mpr rfl), rfl, rfl⟩
    · have worse : ∃ x ∈ s.queue, x.waiting = true ∧ b.priority < x.body.priority := by
        rcases hp with hp | hp | hp
        · exact absurd hp (by omega)
        · rw [(any_waitsFor_iff _ _).mpr hp] at hw
          cases hw
        · rw [h0]
          exact hp
      obtain ⟨x, hx, hxw, hxp⟩ := worse
      obtain ⟨out, rest, hv⟩ := victim_isSome hx hxw hxp
      rw [offer_evicts hw hl hv]
      exact ⟨Entry.new b s.now, (tellEvicted_sameButStock _ _ _ hn).mpr (List.mem_append_right _ (List.mem_singleton.mpr rfl)), rfl, rfl⟩

/-! ## Withdrawals (R109) -/

theorem isRaiseOf_identity {b : Body} {g : GroupNo} (h : b.isRaiseOf g = true) : b.identity = .alert g := by
  cases b with
  | raise group key mask level quality aggregate reorder =>
    rw [Body.isRaiseOf, decide_eq_true_iff] at h
    rw [h]
    rfl
  | stock lane article pack count state confidence => cases h
  | survey pairs => cases h
  | disturb zone hold => cases h
  | clear group key mask => cases h
  | status => cases h

theorem raise_not_stock {b : Body} {g : GroupNo} (h : b.isRaiseOf g = true) (l : LaneNo) : b.identity ≠ .stock l := by
  rw [isRaiseOf_identity h]
  exact fun e => (nomatch e)

/-- What a withdrawal leaves of the entries of the other owners: those of the marked queue that are no WAITING RAISE of the group. -/
theorem withdrawRaise_mem (g : GroupNo) (s : State) {x : Entry} (hx : ∀ l, x.body.identity ≠ .stock l) :
    x ∈ (withdrawRaise g s).queue ↔ x ∈ markWithdrawn g s.queue ∧ x.waitingRaise g = false := by
  unfold withdrawRaise
  dsimp only
  split
  · rw [announceRoom_sameButStock _ x hx, List.mem_filter, Bool.not_eq_true']
  · next hn =>
    refine ⟨fun h => ⟨h, ?_⟩, fun h => h.1⟩
    cases hw : x.waitingRaise g with
    | false => rfl
    | true => exact absurd (List.any_eq_true.mpr ⟨x, h, hw⟩) hn

/-- A marked entry is unmarked in the queue before, or it is the ON LINE RAISE. -/
theorem mem_markWithdrawn {g : GroupNo} {q : List Entry} {x : Entry} (h : x ∈ markWithdrawn g q) :
    ∃ y ∈ q, x.body = y.body ∧ x.waiting = y.waiting
      ∧ (x = y ∧ (y.waiting = true ∨ y.body.isRaiseOf g = false)
        ∨ x = { y with withdraw := true } ∧ y.waiting = false ∧ y.body.isRaiseOf g = true) := by
  obtain ⟨y, hy, rfl⟩ := List.mem_map.mp h
  refine ⟨y, hy, ?_⟩
  split
  · next hm =>
    rw [Bool.and_eq_true, Bool.not_eq_true'] at hm
    exact ⟨rfl, rfl, Or.inr ⟨rfl, hm⟩⟩
  · next hm =>
    refine ⟨rfl, rfl, Or.inl ⟨rfl, ?_⟩⟩
    cases hw : y.waiting with
    | true => exact Or.inl rfl
    | false =>
      cases hb : y.body.isRaiseOf g with
      | false => exact Or.inr rfl
      | true => exact absurd (by rw [hw, hb]; rfl) hm

theorem withdrawRaise_withdrawn (g : GroupNo) (s : State) : RaiseWithdrawn g (withdrawRaise g s).queue := fun x hx hb => by
  obtain ⟨hm, hw⟩ := (withdrawRaise_mem g s (raise_not_stock hb)).mp hx
  obtain ⟨y, -, hbody, hwait, ⟨hxy, hy⟩ | ⟨hxy, hy, -⟩⟩ := mem_markWithdrawn hm
  · have waits : x.waiting = false := by
      unfold Entry.waitingRaise at hw
      rw [hb, Bool.and_true] at hw
      exact hw
    rcases hy with hy | hy
    · rw [← hwait, waits] at hy
      cases hy
    · rw [← hbody, hb] at hy
      cases hy
  · rw [hxy]
    exact ⟨hy, rfl⟩

/-- A withdrawal for any group keeps a RAISE withdrawn. -/
theorem withdrawRaise_keeps (h g : GroupNo) {s : State} (k : RaiseWithdrawn g s.queue) : RaiseWithdrawn g (withdrawRaise h s).queue :=
  fun x hx hb => by
  obtain ⟨hm, -⟩ := (withdrawRaise_mem h s (raise_not_stock hb)).mp hx
  obtain ⟨y, hy, hbody, -, ⟨hxy, -⟩ | ⟨hxy, hyw, -⟩⟩ := mem_markWithdrawn hm
  · rw [hxy]
    exact k y hy (hbody ▸ hb)
  · rw [hxy]
    exact ⟨hyw, rfl⟩

theorem RaiseWithdrawn.of_sameButStock {g : GroupNo} {t s : State} (h : RaiseWithdrawn g s.queue) (k : SameButStock t s) :
    RaiseWithdrawn g t.queue := fun x hx hb => h x ((k x (raise_not_stock hb)).mp hx) hb

theorem RaiseWithdrawn.remarked {g : GroupNo} {p q : List Entry} (h : RaiseWithdrawn g q) (k : Remarked p q) : RaiseWithdrawn g p :=
  fun y hy hb => by
  obtain ⟨x, hx, same⟩ := k.mem_inv hy
  obtain ⟨hw, hm⟩ := h x hx (same.body ▸ hb)
  exact ⟨same.waiting.trans hw, same.withdraw.trans hm⟩

/-- Without a WAITING RAISE a withdrawal marks the ON LINE one alone (R109). -/
theorem withdrawRaise_marks {g : GroupNo} {s : State} (h : ∀ x ∈ s.queue, x.body.isRaiseOf g = true → x.waiting = false) :
    withdrawRaise g s = 
      { s with queue := s.queue.map fun x => if x.body.isRaiseOf g = true ∧ x.waiting = false then { x with withdraw := true } else x } := by
  have marked : markWithdrawn g s.queue = s.queue.map fun x =>
      if x.body.isRaiseOf g = true ∧ x.waiting = false then { x with withdraw := true } else x := by
    refine List.map_congr_left fun x _ => if_congr ?_ rfl rfl
    rw [Bool.and_eq_true, Bool.not_eq_true', and_comm]
  unfold withdrawRaise
  dsimp only
  rw [if_neg, marked]
  intro hn
  obtain ⟨x, hx, hw⟩ := List.any_eq_true.mp hn
  obtain ⟨y, hy, hbody, hwait, -⟩ := mem_markWithdrawn hx
  unfold Entry.waitingRaise at hw
  rw [Bool.and_eq_true, hbody, hwait] at hw
  rw [h y hy hw.2] at hw
  cases hw.1

theorem withdrawRaise_others {g : GroupNo} {s : State} {x : Entry} (hx : x ∈ s.queue) (hb : x.body.isRaiseOf g = false)
    (hn : ∀ l, x.body.identity ≠ .stock l) : x ∈ (withdrawRaise g s).queue := by
  refine (withdrawRaise_mem g s hn).mpr ⟨List.mem_map.mpr ⟨x, hx, if_neg ?_⟩, ?_⟩
  · rw [hb, Bool.and_false]
    exact Bool.false_ne_true
  · rw [Entry.waitingRaise, hb, Bool.and_false]

/-! ## What the queue does with every offer -/

/-- A coalesced entry, by the kind of the offer (the table of R107). -/
theorem coalesce_cases (x : Entry) (b : Body) (now : Time) :
    (b = .status ∨ (∃ pairs, b = .survey pairs) → x.coalesce b now = x)
      ∧ ((∃ zone hold, b = .disturb zone hold) → x.coalesce b now = { x with body := b, enqueued := now, busySeen := false })
      ∧ (b ≠ .status → (∀ pairs, b ≠ .survey pairs) → (∀ zone hold, b ≠ .disturb zone hold) → x.coalesce b now = { x with body := b }) := by
  refine ⟨?_, ?_, fun h2 h3 h1 => ?_⟩
  · rintro (rfl | ⟨pairs, rfl⟩) <;> rfl
  · rintro ⟨zone, hold, rfl⟩
    rfl
  · cases b with
    | stock lane article pack count state confidence => rfl
    | survey pairs => exact absurd rfl (h3 pairs)
    | disturb zone hold => exact absurd rfl (h1 zone hold)
    | raise group key mask level quality aggregate reorder => rfl
    | clear group key mask => rfl
    | status => exact absurd rfl h2

/-- An offer whose identity waits changes that entry alone, each in its place. -/
theorem offer_onto (b : Body) (s : State) (h : ∃ x ∈ s.queue, x.waiting = true ∧ x.body.identity = b.identity) :
    let same (x : Entry) : Prop := x.waiting = true ∧ x.body.identity = b.identity
    ∃ q, offer b s = { s with queue := q } ∧ offerOrRefuse b s = (true, { s with queue := q }) ∧ q.length = s.queue.length
      ∧ ∀ (i : Nat) (x : Entry), s.queue[i]? = some x → ∃ y, q[i]? = some y ∧ (¬ same x → y = x)
        ∧ (same x → b = .status ∨ (∃ pairs, b = .survey pairs) → y = x)
        ∧ (same x → (∃ zone hold, b = .disturb zone hold) → y = { x with body := b, enqueued := s.now, busySeen := false })
        ∧ (same x → b ≠ .status → (∀ pairs, b ≠ .survey pairs) → (∀ zone hold, b ≠ .disturb zone hold) → y = { x with body := b }) := by
  have waits := (any_waitsFor_iff s.queue b.identity).mpr h
  refine ⟨coalesceInto b s.now s.queue, offer_coalesces waits, if_pos waits, List.length_map _, fun i x hx => ?_⟩
  refine ⟨if x.waitsFor b.identity then x.coalesce b s.now else x, by rw [coalesceInto, List.getElem?_map, hx]; rfl, ?_⟩
  obtain ⟨asleep, disturb, body⟩ := coalesce_cases x b s.now
  refine ⟨fun hn => if_neg fun k => hn ((waitsFor_iff x _).mp k), fun hs => ?_, fun hs => ?_, fun hs => ?_⟩ <;>
    rw [if_pos ((waitsFor_iff x _).mpr hs)]
  · exact asleep
  · exact disturb
  · exact body

theorem not_waitsFor {q : List Entry} {i : Identity} (h : ∀ x ∈ q, ¬ (x.waiting = true ∧ x.body.identity = i)) :
    (q.any fun x => x.waitsFor i) = false := by
  refine Bool.eq_false_iff.mpr fun k => ?_
  obtain ⟨x, hx, hm⟩ := (any_waitsFor_iff q i).mp k
  exact h x hx hm

end Sys2Proof.Machine
end


section
/-! PROOF. The Transmit Queue under an offer, and the STATUS that a QUERY asks for. -/

namespace Sys2Proof.Machine

/-! ## Offers, case by case -/

theorem offerOrRefuse_appends {b : Body} {s : State} (h : (s.queue.any fun x => x.waitsFor b.identity) = false)
    (hl : s.queue.length < 8) : offerOrRefuse b s = (true, { s with queue := s.queue ++ [Entry.new b s.now] }) := by
  unfold offerOrRefuse
  rw [if_neg (by rw [h]; exact Bool.false_ne_true), if_pos hl]

theorem offerOrRefuse_refuses {b : Body} {s : State} (h : (s.queue.any fun x => x.waitsFor b.identity) = false)
    (hl : 8 ≤ s.queue.length) : offerOrRefuse b s = (false, s.count .queueRefusals 1) := by
  unfold offerOrRefuse
  rw [if_neg (by rw [h]; exact Bool.false_ne_true), if_neg (by omega)]

/-- A STATUS changes no entry that waits for it already (R107). -/
theorem coalesceInto_status (now : Time) (q : List Entry) : coalesceInto .status now q = q := by
  unfold coalesceInto
  refine (List.map_congr_left fun x _ => ?_).trans (List.map_id q)
  split <;> rfl

/-- The newest WAITING entry of class 3 gives way to an offer of a better class (R108). -/
theorem victim_newest {c : Nat} {older newer : List Entry} {out : Entry} (hc : c < 3) (hw : out.waiting = true)
    (hp : out.body.priority = 3) (hn : ∀ x ∈ newer, x.waiting = true → x.body.priority ≠ 3) :
    victim c (older ++ out :: newer) = some (out, older ++ newer) := by
  unfold victim
  rw [List.findSome?_cons, if_pos hc, takeLast_last]
  · simp only [hw, hp, decide_true, Bool.and_self]
  · intro y hy
    cases h : y.waiting with
    | false => rfl
    | true =>
      rw [Bool.true_and]
      exact decide_eq_false (hn y hy h)

/-- No second WAITING entry has the identity of a WAITING one (R107). -/
theorem waits_alone {older newer : List Entry} {out : Entry} (hw : out.waiting = true)
    (sound : (((older ++ out :: newer).filter Entry.waiting).map fun e => e.body.identity).Nodup) :
    ∀ x ∈ older ++ newer, ¬ (x.waiting = true ∧ x.body.identity = out.body.identity) := by
  rw [List.filter_append, List.filter_cons_of_pos hw, List.map_append, List.map_cons, List.nodup_middle, List.nodup_cons,
    ← List.map_append, ← List.filter_append] at sound
  exact fun x hx ⟨hxw, hi⟩ => sound.1 (List.mem_map.mpr ⟨x, List.mem_filter.mpr ⟨hx, hxw⟩, hi⟩)

/-- A lane's report that finds the queue full of other entries stays due (R113). -/
theorem laneReport_full {l : LaneNo} {s : State} (h : ∀ x ∈ s.queue, ¬ (x.waiting = true ∧ x.body.identity = .stock l))
    (hl : 8 ≤ s.queue.length) :
    laneReport l s = s.updateService l (fun sv => { sv with reportDue := true })
      ∨ laneReport l s = (s.updateService l fun sv => { sv with reportDue := true }).count .queueRefusals 1 := by
  let due := s.updateService l fun sv => { sv with reportDue := true }
  have refuses : offerOrRefuse (due.stockBody l) due = (false, due.count .queueRefusals 1) :=
    offerOrRefuse_refuses (not_waitsFor h) hl
  unfold laneReport laneOffer
  split
  · rw [refuses]
    exact Or.inr rfl
  · exact Or.inl rfl

theorem priority_three {b : Body} (h : b.priority = 3) : (∃ l article pack count state confidence,
    b = .stock l article pack count state confidence) ∨ ∃ pairs, b = .survey pairs := by
  cases b with
  | stock lane article pack count state confidence => exact Or.inl ⟨_, _, _, _, _, _, rfl⟩
  | survey pairs => exact Or.inr ⟨_, rfl⟩
  | disturb zone hold => cases h
  | raise group key mask level quality aggregate reorder => cases h
  | clear group key mask => cases h
  | status => cases h

theorem surveySettled_offered {s : State} {entered : Time} (h : s.station.joinTimer = some ⟨entered, .offered⟩) :
    (surveySettled s).station.joinTimer = some ⟨entered, .settled s.now⟩ := by
  unfold surveySettled
  simp only [State.updateStation_station]
  rw [h]

theorem surveySettled_evictions (s : State) :
    (surveySettled s).station.counters.queueEvictions = s.station.counters.queueEvictions ∧ (surveySettled s).queue = s.queue
      ∧ (surveySettled s).lanes = s.lanes := by
  refine ⟨?_, rfl, rfl⟩
  unfold surveySettled
  simp only [State.updateStation_station]
  split <;> rfl

/-- What the eviction of an entry of class 3 leaves behind in a queue that holds nothing else of its identity (R108, R112). -/
theorem tellEvicted_full {b : Body} {s : State} (hp : b.priority = 3)
    (h : ∀ x ∈ s.queue, ¬ (x.waiting = true ∧ x.body.identity = b.identity)) (hl : 8 ≤ s.queue.length) :
    (tellEvicted b s).queue = s.queue
      ∧ (tellEvicted b s).station.counters.queueEvictions = s.station.counters.queueEvictions
      ∧ (∀ l, (tellEvicted b s).lane l = if b.identity = .stock l then
          { s.lane l with service := { (s.lane l).service with reportDue := true } } else s.lane l)
      ∧ (b.identity = .survey → ∀ entered, s.station.joinTimer = some ⟨entered, .offered⟩ →
        (tellEvicted b s).station.joinTimer = some ⟨entered, .settled s.now⟩) := by
  rcases priority_three hp with ⟨l, article, pack, count, state, confidence, rfl⟩ | ⟨pairs, rfl⟩
  · have lanes (m : LaneNo) : (s.updateService l fun sv => { sv with reportDue := true }).lane m
        = if (Body.stock l article pack count state confidence).identity = .stock m then
            { s.lane m with service := { (s.lane m).service with reportDue := true } } else s.lane m := by
      rw [updateService_lane]
      by_cases e : l = m
      · subst e
        exact (if_pos rfl).trans (if_pos rfl).symm
      · rw [if_neg (Ne.symm e), if_neg fun k => e (by injection k)]
    rcases laneReport_full h hl with k | k
    · exact ⟨by rw [tellEvicted, k]; rfl, by rw [tellEvicted, k]; rfl, fun m => by rw [tellEvicted, k]; exact lanes m,
        fun k => (nomatch k)⟩
    · exact ⟨by rw [tellEvicted, k]; rfl, by rw [tellEvicted, k]; rfl, fun m => by rw [tellEvicted, k]; exact lanes m,
        fun k => (nomatch k)⟩
  · obtain ⟨evictions, queue, lanes⟩ := surveySettled_evictions s
    exact ⟨queue, evictions, fun l => congrArg (Four.get · l) lanes, fun _ _ he => surveySettled_offered he⟩

theorem remarked_split {f : Entry → Entry} {older newer : List Entry} {out : Entry} :
    (older ++ out :: newer).map f = older.map f ++ f out :: newer.map f := by
  rw [List.map_append, List.map_cons]

/-! ## A QUERY's STATUS (R103, R180) -/

theorem offer_status_full {s : State} {older newer : List Entry} {out : Entry} (hq : s.queue = older ++ out :: newer)
    (hs : (s.queue.any fun x => x.waitsFor .status) = false) (hl : s.queue.length = 8) (hw : out.waiting = true)
    (hp : out.body.priority = 3) (hn : ∀ x ∈ newer, x.waiting = true → x.body.priority ≠ 3)
    (sound : ((s.queue.filter Entry.waiting).map fun e => e.body.identity).Nodup) :
    (offer .status s).queue = older ++ newer ++ [Entry.new .status s.now]
      ∧ (offer .status s).station.counters.queueEvictions = min (s.station.counters.queueEvictions + 1) 65535
      ∧ (∀ l, (offer .status s).lane l = if out.body.identity = .stock l then
          { s.lane l with service := { (s.lane l).service with reportDue := true } } else s.lane l)
      ∧ (out.body.identity = .survey → ∀ entered, s.station.joinTimer = some ⟨entered, .offered⟩ →
        (offer .status s).station.joinTimer = some ⟨entered, .settled s.now⟩) := by
  have alone := waits_alone hw (hq ▸ sound)
  have gone : victim Body.status.priority s.queue = some (out, older ++ newer) := by
    rw [hq]
    exact victim_newest (by decide) hw hp hn
  have hlen : (older ++ newer ++ [Entry.new .status s.now]).length = 8 := by
    rw [← hl, hq]
    simp only [List.length_append, List.length_cons, List.length_nil]
    omega
  have other : ∀ x ∈ older ++ newer ++ [Entry.new .status s.now], ¬ (x.waiting = true ∧ x.body.identity = out.body.identity) := by
    intro x hx
    rcases List.mem_append.mp hx with hx | hx
    · exact alone x hx
    · rw [List.mem_singleton] at hx
      rw [hx]
      rintro ⟨-, hi⟩
      rcases priority_three hp with ⟨l, article, pack, count, state, confidence, k⟩ | ⟨pairs, k⟩ <;> rw [k] at hi <;> cases hi
  rw [offer_evicts hs (by omega) gone]
  exact tellEvicted_full (s := State.count .queueEvictions 1 { s with queue := older ++ newer ++ [Entry.new .status s.now] }) hp other
    (Nat.le_of_eq hlen.symm)

theorem filterQuery_own {sender : Nat} (h61 : 61 ≤ sender) (h63 : sender ≤ 63) (s : State) :
    filterQuery sender s.number s = offer .status s := by
  unfold filterQuery fromGateway
  rw [if_pos (by simp [isGateway, h61, h63])]
  exact if_pos rfl

theorem exec_query {e sender : Nat} {chars : List Byte} {s : State} (h : Arrives sender (.query s.number) chars s) (h61 : 61 ≤ sender)
    (h63 : sender ≤ 63) : ∃ lc, exec (.query e chars) s = .next (keepUp (offer .status (atFilter e lc s))) := by
  obtain ⟨lc, hlc⟩ := h.received e
  refine ⟨lc, (h.checked_next rfl _).trans ?_⟩
  rw [hlc]
  exact congrArg (fun t => Host.Outcome.next (keepUp t)) (filterQuery_own (s := atFilter e lc s) h61 h63)

theorem atFilter_remarked (e : Nat) (lc : LineController) (s : State) : Remarked (atFilter e lc s).queue s.queue :=
  passTime_remarked e s

theorem unmarked_append (p q : List Entry) : unmarked (p ++ q) = unmarked p ++ unmarked q := List.map_append

/-- Settles O31, by the four ways in which the queue can take an offer. -/
theorem queryOffersAStatus : Obligations.QueryOffersAStatus := by
  refine ⟨fun e sender chars s arrives h61 h63 => ?_, fun b s => ⟨offer_onto b s, fun hn hl => ?_, fun hn hl hc => ?_, fun g =>
    ⟨withdrawRaise_withdrawn g s, withdrawRaise_marks, fun x hx hb h0 h1 h2 h3 => withdrawRaise_others hx hb fun l => ?_⟩⟩⟩
  · obtain ⟨lc, runs⟩ := exec_query (e := e) arrives h61 h63
    let u := atFilter e lc s
    have agrees := offer_agrees .status u
    have marks : Remarked u.queue s.queue := atFilter_remarked e lc s
    have waits := marks.waitsFor .status
    refine ⟨_, runs, fun hw => ?_, fun hw hl => ?_, fun hw hl sound older out newer hq how hop hnewer => ?_, fun hw hl hc => ?_,
      agrees.aisle.peers, agrees.groups, agrees.aisle.shock, agrees.aisle.engine⟩
    · have same : offer .status u = u :=
        (offer_coalesces (waits.trans hw)).trans (by rw [coalesceInto_status])
      exact ⟨(keepUp_unmarked _).trans (by rw [same]; exact atFilter_unmarked e lc s), by rw [keepUp_lanes, same]; rfl⟩
    · have new := offer_appends (b := .status) (waits.trans hw) (marks.length ▸ hl)
      refine ⟨(keepUp_unmarked _).trans ?_, by rw [keepUp_lanes, new]; rfl⟩
      rw [new, unmarked_append, unmarked_append]
      exact congrArg (· ++ _) marks.unmarked
    · obtain ⟨f, hf, hmap⟩ := marks
      have split : u.queue = older.map f ++ f out :: newer.map f := by rw [hmap, hq, remarked_split]
      have nodup : ((u.queue.filter Entry.waiting).map fun e => e.body.identity).Nodup := by
        rw [hmap, List.filter_map, List.map_map]
        have ids : (fun e : Entry => e.body.identity) ∘ f = fun e => e.body.identity := funext fun x => by
          exact congrArg Body.identity (hf x).body
        have tests : Entry.waiting ∘ f = Entry.waiting := funext fun x => (hf x).waiting
        rw [ids, tests]
        exact sound.2.1
      obtain ⟨queue, evictions, lanes, survey⟩ := offer_status_full split (waits.trans hw)
        (by rw [hmap, List.length_map]; exact hl) ((hf out).waiting.trans how) ((congrArg Body.priority (hf out).body).trans hop)
        (fun y hy hyw => by
          obtain ⟨x, hx, rfl⟩ := List.mem_map.mp hy
          rw [(hf x).body]
          exact hnewer x hx ((hf x).waiting ▸ hyw)) nodup
      rw [(hf out).body] at lanes survey
      refine ⟨(keepUp_unmarked _).trans ?_, evictions, fun l => lanes l, survey⟩
      rw [queue, unmarked_append, unmarked_append, unmarked_append, unmarked_append]
      have plain (l : List Entry) : unmarked (l.map f) = unmarked l := Remarked.unmarked ⟨f, hf, rfl⟩
      rw [plain, plain]
      rfl
    · have none : victim Body.status.priority u.queue = none := victim_none fun y hy hyw => by
        obtain ⟨x, hx, same⟩ := marks.mem_inv hy
        have h3 := hc x hx (same.waiting ▸ hyw)
        have hle := priority_le x.body
        rw [same.body]
        change _ ≤ 2
        omega
      have refused := offer_refused (b := .status) (waits.trans hw) (marks.length ▸ hl) none
      refine ⟨(keepUp_unmarked _).trans (by rw [refused]; exact atFilter_unmarked e lc s), by rw [keepUp_lanes, refused]; rfl, ?_⟩
      rw [keepUp_station, refused]
      rfl
  · exact ⟨offer_appends (not_waitsFor hn) hl, offerOrRefuse_appends (not_waitsFor hn) hl⟩
  · exact ⟨offer_refused (not_waitsFor hn) hl (victim_none hc), offerOrRefuse_refuses (not_waitsFor hn) hl⟩
  · match l with
    | 0 => exact h0
    | 1 => exact h1
    | 2 => exact h2
    | 3 => exact h3

end Sys2Proof.Machine
end


section
/-! PROOF. The reception of a good frame: the counts of the line, the test of its sender, and the filter by kind. -/

namespace Sys2Proof.Machine

/-! ## What a kept frame leaves of the other blocks -/

/-- The Line Controller, the Acquisition Engine, the phase and the count records are the same. -/
structure State.Aside (t s : State) : Prop where
  line : t.line = s.line
  engine : t.engine = s.engine
  phase : t.station.phase = s.station.phase
  counter : ∀ l, (t.lane l).counter = (s.lane l).counter

theorem aside_peers : PeerFrame State.Aside where
  refl _ := ⟨rfl, rfl, rfl, fun _ => rfl⟩
  trans h k := ⟨h.line.trans k.line, h.engine.trans k.engine, h.phase.trans k.phase, fun l => (h.counter l).trans (k.counter l)⟩
  spend _ := ⟨rfl, rfl, rfl, fun _ => rfl⟩
  coalesced _ _ _ := ⟨rfl, rfl, rfl, fun _ => rfl⟩
  appended _ _ _ _ := ⟨rfl, rfl, rfl, fun _ => rfl⟩
  evicted _ _ _ _ _ _ := ⟨rfl, rfl, rfl, fun _ => rfl⟩
  withdrawn _ _ := ⟨rfl, rfl, rfl, fun _ => rfl⟩
  counted _ _ _ := ⟨rfl, rfl, rfl, fun _ => rfl⟩
  reportDue l b s := ⟨rfl, rfl, rfl, fun m => by rw [updateService_lane]; split <;> simp_all⟩
  survey s := by
    have h := (surveySettled_agrees s).aisle
    exact ⟨h.line, h.engine, h.phase, h.counter⟩
  group _ _ _ := ⟨rfl, rfl, rfl, fun _ => rfl⟩
  peers _ _ := ⟨rfl, rfl, rfl, fun _ => rfl⟩

theorem updateService_aside (l : LaneNo) (f : Service → Service) (s : State) : (s.updateService l f).Aside s :=
  ⟨rfl, rfl, rfl, fun m => by rw [updateService_lane]; split <;> simp_all⟩

theorem nameLane_aside (l : LaneNo) (s : State) : (nameLane l s).Aside s := by
  unfold nameLane
  split
  · exact aside_peers.refl s
  · split
    · exact aside_peers.laneReport l s
    · split
      · exact aside_peers.refl s
      · exact updateService_aside l _ s

theorem surveyHeard_aside (pairs : List (Word × Word)) (s : State) : (surveyHeard pairs s).Aside s := by
  refine aside_peers.eachLane (fun l s => ?_) s
  split
  · exact nameLane_aside l s
  · exact aside_peers.refl s

theorem setHoldoff_aside (ends : Time) (s : State) : (setHoldoff ends s).Aside s :=
  ⟨rfl, rfl, rfl, fun l => by simp [setHoldoff, State.updateAllWeighing, State.lane]⟩

theorem applyCandidate_aside (candidate : Time) (s : State) : (applyCandidate candidate s).Aside s := by
  unfold applyCandidate
  split
  · exact setHoldoff_aside _ s
  · split
    · exact setHoldoff_aside _ s
    · exact aside_peers.refl s

theorem disturbHeard_aside (zone : Byte) (hold : Nat) (s : State) : (disturbHeard zone hold s).Aside s := by
  unfold disturbHeard
  split
  · exact applyCandidate_aside _ s
  · exact aside_peers.refl s

theorem filterOut_aside (s : State) : (filterOut s).Aside s := aside_peers.counted _ _ s

theorem fromGateway_aside {sender : Nat} {keep : State → State} {s : State} (h : 61 ≤ sender → sender ≤ 63 → (keep s).Aside s) :
    (fromGateway sender keep s).Aside s := by
  unfold fromGateway isGateway
  split
  · next hg =>
    rw [Bool.and_eq_true, decide_eq_true_iff, decide_eq_true_iff] at hg
    exact h hg.1 hg.2
  · exact aside_peers.counted _ _ s

theorem filterTake_aside (sender : Nat) (key mask : Word) (terminal : Byte) (minutes : Nat) (s : State) :
    (filterTake sender key mask terminal minutes s).Aside s := by
  refine fromGateway_aside fun _ _ => ?_
  split
  · split
    · exact aside_peers.releaseHeard _ _ s
    · exact aside_peers.takeHeard _ _ _ s
  · exact filterOut_aside s

/-- The filter by kind, but for the own RESTART, leaves what is aside of a frame's effects. -/
theorem filterByKind_aside {sender : Nat} {body : RxBody} {s : State}
    (h : ∀ target, body = .restart target → sender < 61 ∨ 63 < sender ∨ target ≠ s.number) : (filterByKind sender body s).Aside s := by
  cases body with
  | stock lane article pack count stateCode confidenceCode =>
    change (filterStock _ _ _).Aside s
    unfold filterStock
    split
    · split
      · exact aside_peers.takeReport _ s
      · exact filterOut_aside s
    · exact filterOut_aside s
  | survey pairs =>
    change (filterSurvey _ _ _).Aside s
    unfold filterSurvey
    split
    · exact surveyHeard_aside pairs s
    · exact filterOut_aside s
  | disturb zone hold =>
    change (filterDisturb _ _ _ _).Aside s
    unfold filterDisturb
    split
    · exact disturbHeard_aside zone hold s
    · exact filterOut_aside s
  | raise key mask levelCode qualityCode aggregate reorder =>
    change (filterRaise _ _ _ _ _ _).Aside s
    unfold filterRaise
    split
    · split
      · exact aside_peers.raiseHeard _ _ _ s
      · exact filterOut_aside s
    · exact filterOut_aside s
    · exact filterOut_aside s
  | clear key mask =>
    change (filterClear _ _ _ _).Aside s
    unfold filterClear
    split
    · split
      · exact aside_peers.clearHeard _ _ s
      · exact filterOut_aside s
    · exact filterOut_aside s
  | take key mask terminal minutes => exact filterTake_aside sender key mask terminal minutes s
  | query target =>
    change (filterQuery sender target s).Aside s
    refine fromGateway_aside fun _ _ => ?_
    split
    · exact aside_peers.offer _ s
    · exact filterOut_aside s
  | status => exact filterOut_aside s
  | restart target =>
    change (filterRestart sender target s).Aside s
    refine fromGateway_aside fun h61 h63 => ?_
    rw [if_neg (((h target rfl).resolve_left (by omega)).resolve_left (by omega))]
    exact filterOut_aside s

theorem filterFrame_aside {sender : Nat} {body : RxBody} {s : State}
    (h : ∀ target, body = .restart target →
      validNumber s.station.number = false ∨ sender < 61 ∨ 63 < sender ∨ target ≠ s.number) :
    (filterFrame sender body s).Aside s := by
  unfold filterFrame
  split
  · exact filterOut_aside s
  · next hv =>
    split
    · exact filterOut_aside s
    · split
      · exact ⟨rfl, rfl, rfl, fun _ => rfl⟩
      · exact filterByKind_aside fun target ht => (h target ht).resolve_left hv

/-! ## The row of a good frame (R88) -/

/-- What the row of a body adds to the reception of its frame: a RESTART's reset ends in its event (R170, R178). -/
def rowEnd (body : RxBody) (straps : BitVec 6) (s : State) : State :=
  match body with
  | .restart _ => restartEnds straps s
  | _ => s

theorem rowEnd_awake {body : RxBody} {straps : BitVec 6} {s : State} (h : s.station.phase ≠ .reset) : rowEnd body straps s = s := by
  unfold rowEnd
  split
  · exact if_neg h
  · rfl

/-- The Line Controller when the filter is reached. -/
def heardLine (e : Nat) (chars : List Byte) (s : State) : State := lowerRec (waitIdle (heardFrame chars (passTime e s)))

theorem frameReceived_good {e sender : Nat} {body : RxBody} {chars received : List Byte} {stopEnd : Time} {s : State}
    (receiving : s.line.receiver = .inFrame received stopEnd) (judged : judge chars = .good sender body) :
    frameReceived chars (passTime e s) = filterFrame sender body (heardLine e chars s) := by
  unfold frameReceived
  rw [passTime_line, receiving, judged]
  rfl

/-- The row of a good frame's body runs its reception and the filter. -/
theorem exec_rowOf {e sender : Nat} {body : RxBody} {chars received : List Byte} {straps : BitVec 6} {stopEnd : Time} {s : State}
    (awake : Awake s) (receiving : s.line.receiver = .inFrame received stopEnd) (judged : judge chars = .good sender body) :
    exec (rowOf body e chars straps) s = .next (keepUp (rowEnd body straps (filterFrame sender body (heardLine e chars s)))) := by
  have timed_is : timed e (frameReceived chars) s = keepUp (filterFrame sender body (heardLine e chars s)) := by
    rw [timed_awake awake, frameReceived_good receiving judged]
  have row {test : RxBody → Bool} (ht : test body = true) (t : State) : checked (goodOk test chars) t = .next t :=
    checked_of_true (by unfold goodOk; rw [judged]; exact ht) t
  cases body with
  | stock lane article pack count stateCode confidenceCode => exact (row rfl _).trans (congrArg _ timed_is)
  | survey pairs => exact (row rfl _).trans (congrArg _ timed_is)
  | disturb zone hold => exact (row rfl _).trans (congrArg _ timed_is)
  | raise key mask levelCode qualityCode aggregate reorder => exact (row rfl _).trans (congrArg _ timed_is)
  | clear key mask => exact (row rfl _).trans (congrArg _ timed_is)
  | take key mask terminal minutes =>
    unfold rowOf
    dsimp only
    by_cases h : minutes = 0
    · rw [if_pos h]
      exact (row (test := RxBody.isRelease) (decide_eq_true h) _).trans (congrArg _ timed_is)
    · rw [if_neg h]
      exact (row (test := RxBody.isTake) (decide_eq_true h) _).trans (congrArg _ timed_is)
  | query target => exact (row rfl _).trans (congrArg _ timed_is)
  | status => exact (row rfl _).trans (congrArg _ timed_is)
  | restart target =>
    refine (row rfl _).trans (congrArg _ ?_)
    rw [timed_awake awake]
    dsimp only
    rw [frameReceived_good receiving judged]
    rfl

/-- The line as the reception of a good frame leaves it (R88, R97). -/
theorem heardLine_line (e : Nat) (chars : List Byte) (s : State) :
    (heardLine e chars s).line.recCount = s.line.recCount - 1 ∧ (heardLine e chars s).line.receiver = .waitIdle
      ∧ (heardLine e chars s).line.tecCount = s.line.tecCount ∧ (heardLine e chars s).line.lastError = s.line.lastError := by
  unfold heardLine lowerRec
  rw [checkLineState_line]
  simp only [LineController.checked_recCount, LineController.checked_receiver, LineController.checked_tecCount,
    LineController.checked_lastError]
  exact ⟨rfl, rfl, rfl, rfl⟩

theorem heardLine_agrees (e : Nat) (chars : List Byte) (s : State) :
    (heardLine e chars s).engine = s.engine ∧ (heardLine e chars s).station.phase = s.station.phase
      ∧ (heardLine e chars s).station.number = s.station.number
      ∧ ∀ l, ((heardLine e chars s).lane l).counter = (s.lane l).counter := by
  let u := (waitIdle (heardFrame chars (passTime e s))).updateLine fun lc => { lc with recCount := lc.recCount - 1 }
  have h := checkLineState_agrees u
  have hn : u.lineChecked.station.number = u.station.number := by
    unfold State.lineChecked
    dsimp only
    split <;> rfl
  exact ⟨h.engine.trans u.lineChecked_engine, h.phase.trans u.lineChecked_phase, h.number.trans hn,
    fun l => (h.counter l).trans (congrArg (fun x : Four Lane => (x.get l).counter) u.lineChecked_lanes)⟩

theorem heardLine_sound {s : State} (sound : LineCountsSound s) (e : Nat) (chars : List Byte) :
    ∃ lc, heardLine e chars s = atFilter e lc s := lowerRec_received sound e chars

/-- Settles O22: the counts change before the filter, which leaves the line and the engine aside. -/
theorem goodFrameLowersRec : Obligations.GoodFrameLowersRec := by
  intro e sender body received chars straps stopEnd s awake receiving judged hr
  obtain ⟨hrec, hwait, htec, herr⟩ := heardLine_line e chars s
  obtain ⟨hengine, hphase, hnumber, hcounter⟩ := heardLine_agrees e chars s
  have aside : (filterFrame sender body (heardLine e chars s)).Aside (heardLine e chars s) := filterFrame_aside fun target ht => by
    unfold State.number
    rw [hnumber]
    exact hr target ht
  have asleep := rowEnd_awake (body := body) (straps := straps) (s := filterFrame sender body (heardLine e chars s))
    (by rw [aside.phase, hphase]; exact awake)
  refine ⟨_, exec_rowOf awake receiving judged, ?_⟩
  rw [asleep]
  simp only [keepUp_line_recCount, keepUp_line_receiver, keepUp_line_tecCount, keepUp_line_lastError, keepUp_engine, keepUp_lane,
    keepUp_station, keepUp_lanes, keepUp_peers, keepUp_groups, keepUp_shock]
  rw [aside.line]
  refine ⟨hrec, hwait, htec, herr, aside.engine.trans hengine, fun l => (aside.counter l).trans (hcounter l), ?_⟩
  rintro rfl sound valid ne0 own
  obtain ⟨lc, hlc⟩ := heardLine_sound sound e chars
  rw [hlc, filterFrame_of_ne (s := atFilter e lc s) valid ne0 own]
  exact ⟨rfl, rfl, rfl, rfl, rfl⟩

/-! ## The filter by kind (R102, R103) -/

theorem stockState_iff : ∀ code, (∃ st, stockState code = some st) ↔ 2 ≤ code ∧ code ≤ 5
  | 0 | 1 | 2 | 3 | 4 | 5 => by simp [stockState]
  | n + 6 => by simp [stockState]

theorem confidenceOf_iff : ∀ code, (∃ c, confidenceOf code = some c) ↔ code ≤ 2
  | 0 | 1 | 2 => by simp [confidenceOf]
  | n + 3 => by simp [confidenceOf]

theorem shortageOf_iff : ∀ code, (∃ c, shortageOf code = some c) ↔ 1 ≤ code ∧ code ≤ 2
  | 0 | 1 | 2 => by simp [shortageOf]
  | n + 3 => by simp [shortageOf]

theorem isStation_iff (sender : Nat) : isStation sender = true ↔ 1 ≤ sender ∧ sender ≤ 60 := by
  unfold isStation
  rw [Bool.and_eq_true, decide_eq_true_iff, decide_eq_true_iff]

theorem isGateway_iff (sender : Nat) : isGateway sender = true ↔ 61 ≤ sender ∧ sender ≤ 63 := by
  unfold isGateway
  rw [Bool.and_eq_true, decide_eq_true_iff, decide_eq_true_iff]

theorem holdsArticle_iff (s : State) (article : Word) :
    s.holdsArticle article = true ↔ ∃ g gr, s.group g = some gr ∧ article &&& gr.record.mask = gr.record.key := by
  unfold State.holdsArticle
  simp only [List.any_eq_true, groupTest_iff, matchesGroup, beq_iff_eq]
  exact ⟨fun ⟨g, _, h⟩ => ⟨g, h⟩, fun ⟨g, h⟩ => ⟨g, mem_allGroups g, h⟩⟩

theorem findGroup_isSome {s : State} {key mask : Word} : (∃ g, s.findGroup key mask = some g) ↔ OwnGroup key mask s := by
  constructor
  · rintro ⟨g, h⟩
    exact ⟨g, (sameTest_iff s key mask g).mp (List.find?_some h)⟩
  · rintro ⟨g, gr, h⟩
    cases hf : s.findGroup key mask with
    | some m => exact ⟨m, rfl⟩
    | none => exact absurd ((sameTest_iff s key mask g).mpr ⟨gr, h⟩) (List.find?_eq_none.mp hf g (mem_allGroups g))

theorem surveyNames_iff (s : State) (pairs : List (Word × Word)) : s.surveyNames pairs = true
    ↔ ∃ l, (s.lane l).service.state ≠ .off ∧ ∃ p ∈ pairs, (s.laneSettings l).article &&& p.2 = p.1 := by
  unfold State.surveyNames
  simp only [List.any_eq_true, Bool.and_eq_true, decide_eq_true_iff, pairMatches, matchesGroup, beq_iff_eq]
  exact ⟨fun ⟨l, _, h⟩ => ⟨l, h⟩, fun ⟨l, h⟩ => ⟨l, mem_allLanes l, h⟩⟩

theorem names_iff (m : ShockMonitor) (zone : Byte) : m.names zone = true ↔ zone ≠ 0 ∧ ∃ i, zone = m.neighbours.get i := by
  unfold ShockMonitor.names
  simp only [List.any_eq_true, Bool.and_eq_true, beq_iff_eq, bne_iff_ne]
  constructor
  · rintro ⟨i, -, rfl, h⟩
    exact ⟨h, i, rfl⟩
  · rintro ⟨h, i, rfl⟩
    exact ⟨i, mem_allLanes i, rfl, h⟩

theorem applies_iff (m : ShockMonitor) (zone : Byte) : m.applies zone = true
    ↔ m.configured = true ∧ (zone = m.ownZone ∨ zone ≠ 0 ∧ ∃ i, zone = m.neighbours.get i) := by
  unfold ShockMonitor.applies
  rw [Bool.and_eq_true, Bool.or_eq_true, names_iff, beq_iff_eq, eq_comm (a := m.ownZone)]

theorem stockReport_kept {sender lane : Nat} {article : Word} {pack count stateCode confidenceCode : Nat} {arrival : Time}
    {x : PeerEntry} (h : stockReport sender lane article pack count stateCode confidenceCode arrival = some x) :
    lane ≤ 3 ∧ 2 ≤ stateCode ∧ stateCode ≤ 5 ∧ confidenceCode ≤ 2 ∧ x.article = article := by
  unfold stockReport at h
  split at h
  · next hl =>
    split at h
    · next state confidence hs hc =>
      injection h with h
      obtain ⟨h2, h5⟩ := (stockState_iff stateCode).mp ⟨state, hs⟩
      exact ⟨by omega, h2, h5, (confidenceOf_iff _).mp ⟨confidence, hc⟩, by rw [← h]⟩
    · cases h
    · cases h
  · cases h

theorem filterStock_out {sender lane : Nat} {article : Word} {pack count stateCode confidenceCode : Nat} {arrival : Time} {s : State}
    (h : ¬ StationKept sender (.stock lane article pack count stateCode confidenceCode) s) :
    filterStock sender (stockReport sender lane article pack count stateCode confidenceCode arrival) s = filterOut s := by
  unfold filterStock
  split
  · next x hx =>
    obtain ⟨hl, h2, h5, hc, ha⟩ := stockReport_kept hx
    refine if_neg fun k => h ?_
    rw [Bool.and_eq_true, isStation_iff, ha, holdsArticle_iff] at k
    exact ⟨k.1.1, k.1.2, hl, h2, h5, hc, k.2⟩
  · rfl

theorem filterRaise_out {sender levelCode qualityCode : Nat} {key mask : Word} {aggregate reorder : Nat} {s : State}
    (h : ¬ StationKept sender (.raise key mask levelCode qualityCode aggregate reorder) s) :
    filterRaise sender key mask levelCode qualityCode s = filterOut s := by
  unfold filterRaise
  split
  · next g level hg hlevel =>
    refine if_neg fun k => h ?_
    rw [Bool.and_eq_true, isStation_iff, decide_eq_true_iff] at k
    obtain ⟨h1, h2⟩ := (shortageOf_iff levelCode).mp ⟨level, hlevel⟩
    exact ⟨k.1.1, k.1.2, findGroup_isSome.mp ⟨g, hg⟩, h1, h2, k.2⟩
  · rfl
  · rfl

theorem filterClear_out {sender : Nat} {key mask : Word} {s : State} (h : ¬ StationKept sender (.clear key mask) s) :
    filterClear sender key mask s = filterOut s := by
  unfold filterClear
  split
  · next g hg =>
    refine if_neg fun k => h ?_
    obtain ⟨h1, h60⟩ := (isStation_iff sender).mp k
    exact ⟨h1, h60, findGroup_isSome.mp ⟨g, hg⟩⟩
  · rfl

/-- A frame of a station kind that R102 does not keep is filtered out. -/
theorem filterByKind_station_out {sender : Nat} {body : RxBody} {s : State} (hk : ¬ GatewayKind body) (h : ¬ StationKept sender body s) :
    filterByKind sender body s = filterOut s := by
  cases body with
  | stock lane article pack count stateCode confidenceCode => exact filterStock_out h
  | survey pairs =>
    refine if_neg fun k => h ?_
    rw [Bool.and_eq_true, isStation_iff, surveyNames_iff] at k
    exact ⟨k.1.1, k.1.2, k.2⟩
  | disturb zone hold =>
    refine if_neg fun k => h ?_
    rw [Bool.and_eq_true, isStation_iff, applies_iff] at k
    exact ⟨k.1.1, k.1.2, k.2⟩
  | raise key mask levelCode qualityCode aggregate reorder => exact filterRaise_out h
  | clear key mask => exact filterClear_out h
  | take key mask terminal minutes => exact absurd trivial hk
  | query target => exact absurd trivial hk
  | status => rfl
  | restart target => exact absurd trivial hk

theorem fromGateway_refused {sender : Nat} (h : sender < 61 ∨ 63 < sender) (keep : State → State) (s : State) :
    fromGateway sender keep s = refuseGateway s := if_neg fun k => by
  obtain ⟨h61, h63⟩ := (isGateway_iff sender).mp k
  omega

theorem fromGateway_kept {sender : Nat} (h61 : 61 ≤ sender) (h63 : sender ≤ 63) (keep : State → State) (s : State) :
    fromGateway sender keep s = keep s := if_pos ((isGateway_iff sender).mpr ⟨h61, h63⟩)

/-- A frame of a gateway kind from another sender is refused (R103). -/
theorem filterByKind_refused {sender : Nat} {body : RxBody} {s : State} (hk : GatewayKind body) (h : sender < 61 ∨ 63 < sender) :
    filterByKind sender body s = refuseGateway s := by
  cases body with
  | take key mask terminal minutes =>
    change filterTake sender key mask terminal minutes s = _
    exact fromGateway_refused h _ s
  | query target =>
    change filterQuery sender target s = _
    exact fromGateway_refused h _ s
  | restart target =>
    change filterRestart sender target s = _
    exact fromGateway_refused h _ s
  | stock lane article pack count stateCode confidenceCode => exact absurd hk id
  | survey pairs => exact absurd hk id
  | disturb zone hold => exact absurd hk id
  | raise key mask levelCode qualityCode aggregate reorder => exact absurd hk id
  | clear key mask => exact absurd hk id
  | status => exact absurd hk id

/-- A gateway's frame that R103 does not keep is filtered out. -/
theorem filterByKind_gateway_out {sender : Nat} {body : RxBody} {s : State} (hk : GatewayKind body) (h61 : 61 ≤ sender)
    (h63 : sender ≤ 63) (h : ¬ GatewayKept body s) : filterByKind sender body s = filterOut s := by
  cases body with
  | take key mask terminal minutes =>
    change filterTake sender key mask terminal minutes s = _
    refine (fromGateway_kept h61 h63 _ s).trans ?_
    cases hf : s.findGroup key mask with
    | some g => exact absurd (findGroup_isSome.mp ⟨g, hf⟩) h
    | none => rfl
  | query target =>
    change filterQuery sender target s = _
    exact (fromGateway_kept h61 h63 _ s).trans (if_neg h)
  | restart target =>
    change filterRestart sender target s = _
    exact (fromGateway_kept h61 h63 _ s).trans (if_neg h)
  | stock lane article pack count stateCode confidenceCode => exact absurd hk id
  | survey pairs => exact absurd hk id
  | disturb zone hold => exact absurd hk id
  | raise key mask levelCode qualityCode aggregate reorder => exact absurd hk id
  | clear key mask => exact absurd hk id
  | status => exact absurd hk id

/-- Settles O23, by the tests in their order. -/
theorem senderIsTestedFirst : Obligations.SenderIsTestedFirst := by
  intro e sender body received chars straps stopEnd s awake receiving judged sound filteredOut passes
  obtain ⟨lc, hlc⟩ := heardLine_sound sound e chars
  let u := atFilter e lc s
  have marked : unmarked u.queue = unmarked s.queue := atFilter_unmarked e lc s
  have runs := exec_rowOf (e := e) (straps := straps) awake receiving judged
  rw [hlc] at runs
  have ends {v : State} (hf : filterFrame sender body u = v) (hp : v.station.phase = s.station.phase) :
      rowEnd body straps (filterFrame sender body u) = v := by
    rw [hf]
    exact rowEnd_awake (by rw [hp]; exact awake)
  have out (hf : filterFrame sender body u = filterOut u) : filteredOut (keepUp (rowEnd body straps (filterFrame sender body u))) := by
    rw [ends hf rfl]
    exact ⟨rfl, rfl, (keepUp_unmarked _).trans marked, rfl, rfl, rfl⟩
  have byKind (p : passes) : filterFrame sender body u = filterByKind sender body u := filterFrame_of_ne (s := u) p.1 p.2.1 p.2.2 body
  refine ⟨_, runs, fun h => out ?_, fun valid ne0 own => ?_, fun p hk h => out ?_, fun p hk h => ?_, fun p hk h61 h63 h => out ?_⟩
  · unfold filterFrame
    rcases h with h | h
    · exact if_pos h
    · rw [if_pos h, ite_self]
  · have clash : filterFrame sender body u = u.latch .numberClash := by
      unfold filterFrame
      rw [if_neg (by rw [show u.station.number = s.station.number from rfl, valid]; exact Bool.noConfusion), if_neg ne0]
      exact if_pos own
    rw [ends clash rfl]
    exact ⟨rfl, rfl, (keepUp_unmarked _).trans marked, rfl, rfl, rfl⟩
  · exact (byKind p).trans (filterByKind_station_out hk h)
  · rw [ends ((byKind p).trans (filterByKind_refused hk h)) rfl]
    exact ⟨rfl, rfl, (keepUp_unmarked _).trans marked, rfl, rfl, rfl⟩
  · exact (byKind p).trans (filterByKind_gateway_out hk h61 h63 h)

end Sys2Proof.Machine
end


section
/-! PROOF. What a kept SURVEY, DISTURB, RAISE and TAKE do. -/

namespace Sys2Proof.Machine

/-! ## Every lane and every group, each in its turn -/

/-- An event of several items, each once: item `a` has its turn in a state that only the others before it have changed, and only the others
after it change what its turn leaves. -/
theorem foldl_passes {α σ : Type} {R : σ → σ → Prop} (refl : ∀ s, R s s) (trans : ∀ {x y z}, R x y → R y z → R x z) {f : σ → α → σ}
    {a : α} (others : ∀ s b, b ≠ a → R (f s b) s) {l : List α} (hl : l.Nodup) (ha : a ∈ l) (s : σ) :
    ∃ u, R u s ∧ R (l.foldl f s) (f u a) := by
  have rest {l : List α} (h : a ∉ l) (s : σ) : R (l.foldl f s) s := by
    induction l generalizing s with
    | nil => exact refl s
    | cons b l ih =>
      rw [List.mem_cons, not_or] at h
      exact trans (ih h.2 (f s b)) (others s b (Ne.symm h.1))
  induction l generalizing s with
  | nil => cases ha
  | cons b l ih =>
    obtain ⟨hb, hl⟩ := List.nodup_cons.mp hl
    by_cases e : b = a
    · subst e
      exact ⟨s, refl s, rest hb _⟩
    · obtain ⟨u, hu, hf⟩ := ih hl ((List.mem_cons.mp ha).resolve_left (Ne.symm e)) (f s b)
      exact ⟨u, trans hu (others s b e), hf⟩

theorem allLanes_nodup : allLanes.Nodup := by decide

theorem eachLane_passes {R : State → State → Prop} (refl : ∀ s, R s s) (trans : ∀ {x y z}, R x y → R y z → R x z)
    (spend : ∀ s : State, R s.spend s) {f : LaneNo → State → State} {l : LaneNo} (others : ∀ s m, m ≠ l → R (f m s) s) (s : State) :
    ∃ u, R u s ∧ R (eachLane f s) (f l u) := by
  have p := arrange_perm (Config.freeOrder s.choices) allLanes
  obtain ⟨u, hu, hf⟩ := foldl_passes (f := fun t m => f m t) refl trans others (p.nodup_iff.mpr allLanes_nodup)
    (p.mem_iff.mpr (mem_allLanes l)) s.spend
  exact ⟨u, trans hu (spend s), hf⟩

theorem eachGroup_passes {R : State → State → Prop} (refl : ∀ s, R s s) (trans : ∀ {x y z}, R x y → R y z → R x z)
    (spend : ∀ s : State, R s.spend s) {f : GroupNo → State → State} {g : GroupNo} (others : ∀ s h, h ≠ g → R (f h s) s) (s : State) :
    ∃ u, R u s ∧ R (eachGroup f s) (f g u) := by
  have p := arrange_perm (Config.freeOrder s.choices) allGroups
  obtain ⟨u, hu, hf⟩ := foldl_passes (f := fun t m => f m t) refl trans others (p.nodup_iff.mpr allGroups_nodup)
    (p.mem_iff.mpr (mem_allGroups g)) s.spend
  exact ⟨u, trans hu (spend s), hf⟩

/-! ## DISTURB (R77) -/

theorem setHoldoff_lane (ends : Time) (s : State) (l : LaneNo) :
    (setHoldoff ends s).lane l = { s.lane l with weighing := { (s.lane l).weighing with motion := .moving, window := [] } } := by
  simp [setHoldoff, State.updateAllWeighing, State.lane, Weighing.underHoldoff]

theorem applyCandidate_extends {candidate : Time} {s : State}
    (h : s.shock.holdoff = none ∨ ∃ ends, s.shock.holdoff = some ends ∧ ends.before candidate = true) :
    applyCandidate candidate s = setHoldoff candidate s := by
  unfold applyCandidate
  rcases h with h | ⟨ends, h, hb⟩ <;> rw [h]
  exact if_pos hb

theorem applyCandidate_within {candidate ends : Time} {s : State} (h : s.shock.holdoff = some ends) (hb : ends.before candidate = false) :
    applyCandidate candidate s = s := by
  unfold applyCandidate
  rw [h]
  exact if_neg (by rw [hb]; exact Bool.false_ne_true)

theorem exec_disturbReceived {e sender hold : Nat} {zone : Byte} {chars : List Byte} {s : State}
    (h : Arrives sender (.disturb zone hold) chars s) (h60 : sender ≤ 60) (ha : s.shock.applies zone = true) :
    ∃ lc, exec (.disturbReceived e chars) s
      = .next (keepUp (applyCandidate ((at' e s).addMs (clampHold hold * 100)) (atFilter e lc s))) := by
  obtain ⟨lc, hlc⟩ := h.received e
  obtain ⟨-, -, -, -, ne0, -⟩ := id h
  refine ⟨lc, (h.checked_next rfl _).trans ?_⟩
  rw [hlc]
  refine congrArg (fun t => Host.Outcome.next (keepUp t)) ?_
  change filterDisturb sender zone hold (atFilter e lc s) = _
  unfold filterDisturb disturbHeard
  have applies : (atFilter e lc s).shock.applies zone = true := ha
  rw [if_pos (by rw [Bool.and_eq_true]; exact ⟨(isStation_iff sender).mpr ⟨Nat.pos_of_ne_zero ne0, h60⟩, applies⟩), if_pos applies]
  rfl

/-- Settles O26, by whether the candidate end lies after the holdoff's. -/
theorem disturbHoldsOff : Obligations.DisturbHoldsOff := by
  intro e sender hold zone chars s arrives h60 ha candidate
  obtain ⟨lc, runs⟩ := exec_disturbReceived (e := e) arrives h60 ha
  refine ⟨_, runs, fun h => ?_, fun ends h hb => ?_, ?_⟩
  · have is := applyCandidate_extends (s := atFilter e lc s) (candidate := candidate) h
    rw [show (at' e s).addMs (clampHold hold * 100) = candidate from rfl, is]
    exact ⟨rfl, fun l => setHoldoff_lane candidate (atFilter e lc s) l⟩
  · have is := applyCandidate_within (s := atFilter e lc s) h hb
    rw [show (at' e s).addMs (clampHold hold * 100) = candidate from rfl, is]
    exact ⟨rfl, rfl⟩
  · have same := applyCandidate_agreesLanes ((at' e s).addMs (clampHold hold * 100)) (atFilter e lc s)
    have groups : (applyCandidate ((at' e s).addMs (clampHold hold * 100)) (atFilter e lc s)).groups = s.groups := by
      unfold applyCandidate
      split
      · rfl
      · split <;> rfl
    exact ⟨same.peers, groups, same.engine⟩

/-! ## SURVEY (R116, R129) -/

/-- Lane `l` and its report as an event of the other lanes leaves them. -/
structure State.LaneWaits (l : LaneNo) (t s : State) : Prop where
  lane : t.lane l = s.lane l
  reports : ReportComes s l → ReportComes t l
  agrees : t.AgreesButLanes s

namespace State.LaneWaits

variable {l m : LaneNo} {s : State}

theorem refl (s : State) : State.LaneWaits l s s := ⟨rfl, id, .refl s⟩

theorem trans {u t s : State} (h : State.LaneWaits l u t) (k : State.LaneWaits l t s) : State.LaneWaits l u s :=
  ⟨h.lane.trans k.lane, h.reports ∘ k.reports, h.agrees.trans k.agrees⟩

end State.LaneWaits

theorem updateService_lane_ne {l m : LaneNo} (h : m ≠ l) (f : Service → Service) (s : State) : (s.updateService m f).lane l = s.lane l := by
  rw [updateService_lane, if_neg (Ne.symm h)]

theorem updateService_lane_self (l : LaneNo) (f : Service → Service) (s : State) :
    (s.updateService l f).lane l = { s.lane l with service := f (s.lane l).service } := by
  rw [updateService_lane, if_pos rfl]

theorem offerOrRefuse_lanes (b : Body) (s : State) : (offerOrRefuse b s).2.lanes = s.lanes := by
  unfold offerOrRefuse
  split
  · rfl
  · split <;> rfl

theorem laneOffer_lane_ne {l m : LaneNo} (h : m ≠ l) (s : State) : (laneOffer m s).lane l = s.lane l := by
  have k := congrArg (Four.get · l) (offerOrRefuse_lanes (s.stockBody m) s)
  unfold laneOffer
  split
  · cases heq : offerOrRefuse (s.stockBody m) s with
    | mk taken t =>
      rw [heq] at k
      cases taken with
      | true => exact (updateService_lane_ne h _ t).trans k
      | false => exact k
  · rfl

theorem laneReport_lane_ne {l m : LaneNo} (h : m ≠ l) (s : State) : (laneReport m s).lane l = s.lane l :=
  (laneOffer_lane_ne h _).trans (updateService_lane_ne h _ s)

theorem nameLane_waits {l m : LaneNo} (h : m ≠ l) (s : State) : State.LaneWaits l (nameLane m s) s := by
  unfold nameLane
  split
  · exact .refl s
  · split
    · exact ⟨laneReport_lane_ne h s, (laneReport_reports m s).1.2 l, (laneReport_agrees m s).lanes⟩
    · split
      · exact .refl s
      · have lane := updateService_lane_ne h (fun sv => { sv with surveyDelay := some (s.now.addMs (s.number % 16 * 50)) }) s
        exact ⟨lane, fun k => by rw [ReportComes, lane]; exact k, updateService_agreesLanes m _ s⟩

/-- A lane after a SURVEY that names it or not, in its turn. -/
theorem surveyHeard_lane (pairs : List (Word × Word)) (s : State) (l : LaneNo) :
    ∃ u, State.LaneWaits l u s ∧ State.LaneWaits l (surveyHeard pairs s)
      (if pairs.any (pairMatches (s.laneSettings l).article) then nameLane l u else u) := by
  obtain ⟨u, hu, hf⟩ := eachLane_passes (R := State.LaneWaits l) .refl State.LaneWaits.trans (fun s => ⟨rfl, id, rfl⟩)
    (f := fun l s => if pairs.any (pairMatches (s.laneSettings l).article) then nameLane l s else s)
    (fun s m hm => by
      split
      · exact nameLane_waits hm s
      · exact .refl s) s
  rw [hu.agrees.laneSettings l] at hf
  exact ⟨u, hu, hf⟩

theorem exec_surveyReceived {e sender : Nat} {pairs : List (Word × Word)} {chars : List Byte} {s : State}
    (h : Arrives sender (.survey pairs) chars s) (h60 : sender ≤ 60) (hn : s.surveyNames pairs = true) :
    ∃ lc, exec (.surveyReceived e chars) s = .next (keepUp (surveyHeard pairs (atFilter e lc s))) := by
  obtain ⟨lc, hlc⟩ := h.received e
  obtain ⟨-, -, -, -, ne0, -⟩ := id h
  refine ⟨lc, (h.checked_next rfl _).trans ?_⟩
  rw [hlc]
  refine congrArg (fun t => Host.Outcome.next (keepUp t)) ?_
  have names : (atFilter e lc s).surveyNames pairs = true := hn
  exact if_pos (by rw [Bool.and_eq_true]; exact ⟨(isStation_iff sender).mpr ⟨Nat.pos_of_ne_zero ne0, h60⟩, names⟩)

theorem pairMatches_any (article : Word) (pairs : List (Word × Word)) :
    pairs.any (pairMatches article) = true ↔ ∃ p ∈ pairs, article &&& p.2 = p.1 := by
  simp only [List.any_eq_true, pairMatches, matchesGroup, beq_iff_eq]

/-- A report comes after what follows an event at once, too. -/
theorem ReportComes.keepUp {s : State} {l : LaneNo} (h : ReportComes s l) : ReportComes (keepUp s) l :=
  h.imp id fun ⟨ho, hw⟩ => ⟨ho, ((keepUp_remarked s).waitsFor _).trans hw⟩

theorem ReportComes.reported {s t : State} {l : LaneNo} (h : ReportComes t l)
    (hs : (t.lane l).service.state = (s.lane l).service.state) : Reported s t l :=
  h.imp id fun ⟨ho, hw⟩ => ⟨hs ▸ ho, hw⟩

theorem nameLane_off {l : LaneNo} {s : State} (h : (s.lane l).service.state = .off) : nameLane l s = s := if_pos h

theorem nameLane_reports {l : LaneNo} {s : State} (h : (s.lane l).service.state ≠ .off) (hn : s.number % 16 = 0) :
    nameLane l s = laneReport l s := by
  unfold nameLane
  rw [if_neg h, if_pos hn]

theorem nameLane_delays {l : LaneNo} {s : State} (h : (s.lane l).service.state ≠ .off) (hn : s.number % 16 ≠ 0) :
    (nameLane l s).lane l = { s.lane l with service := { (s.lane l).service with
      surveyDelay := some ((s.lane l).service.surveyDelay.getD (s.now.addMs (s.number % 16 * 50))) } } := by
  unfold nameLane
  rw [if_neg h, if_neg hn]
  split
  · next t ht =>
    rw [ht]
    change s.lane l = { s.lane l with service := { (s.lane l).service with surveyDelay := some t } }
    rw [← ht]
  · next hd =>
    rw [updateService_lane_self, hd]
    rfl

theorem laneOffer_lane (l : LaneNo) (s : State) : ∃ due, (laneOffer l s).lane l
    = { s.lane l with service := { (s.lane l).service with reportDue := due } } := by
  have k := congrArg (Four.get · l) (offerOrRefuse_lanes (s.stockBody l) s)
  unfold laneOffer
  split
  · cases heq : offerOrRefuse (s.stockBody l) s with
    | mk taken t =>
      rw [heq] at k
      have lane : t.lane l = s.lane l := k
      cases taken with
      | true => exact ⟨false, by rw [updateService_lane_self, lane]⟩
      | false => exact ⟨(s.lane l).service.reportDue, lane⟩
  · exact ⟨(s.lane l).service.reportDue, rfl⟩

theorem laneReport_lane (l : LaneNo) (s : State) : ∃ due, (laneReport l s).lane l
    = { s.lane l with service := { (s.lane l).service with reportDue := due } } := by
  obtain ⟨due, h⟩ := laneOffer_lane l (s.updateService l fun sv => { sv with reportDue := true })
  exact ⟨due, h.trans (by rw [updateService_lane_self])⟩

theorem surveyHeard_shock_groups (pairs : List (Word × Word)) (s : State) :
    (surveyHeard pairs s).shock = s.shock ∧ (surveyHeard pairs s).groups = s.groups := by
  refine foldl_relates (fun t s : State => t.shock = s.shock ∧ t.groups = s.groups) (fun _ => ⟨rfl, rfl⟩)
    (fun h k => ⟨h.1.trans k.1, h.2.trans k.2⟩) _ (fun s l => ?_) _ s.spend
  dsimp only
  split
  · unfold nameLane
    split
    · exact ⟨rfl, rfl⟩
    · split
      · exact ⟨(laneReport_agrees l s).aisle.shock, (laneReport_agrees l s).groups⟩
      · split <;> exact ⟨rfl, rfl⟩
  · exact ⟨rfl, rfl⟩

/-- Settles O25: each lane takes its turn once, and no other lane touches it. -/
theorem surveyStartsTheDelays : Obligations.SurveyStartsTheDelays := by
  intro e sender pairs chars s arrives h60 hn named others
  obtain ⟨lc, runs⟩ := exec_surveyReceived (e := e) arrives h60 hn
  have aside := surveyHeard_aside pairs (atFilter e lc s)
  refine ⟨_, runs, fun l => ?_, ?_⟩
  · obtain ⟨u, hu, hf⟩ := surveyHeard_lane pairs (atFilter e lc s) l
    have lane : u.lane l = s.lane l := hu.lane
    have here : (keepUp (surveyHeard pairs (atFilter e lc s))).lane l
        = ((if pairs.any (pairMatches (s.laneSettings l).article) then nameLane l u else u) : State).lane l := hf.lane
    have plain (h : (keepUp (surveyHeard pairs (atFilter e lc s))).lane l = s.lane l) :
        (keepUp (surveyHeard pairs (atFilter e lc s))).lane l = others (keepUp (surveyHeard pairs (atFilter e lc s))) l := by
      dsimp only [others]
      rw [h]
    by_cases hname : named l
    · obtain ⟨hoff, hp⟩ := hname
      rw [if_pos ((pairMatches_any _ _).mpr hp)] at here
      have uoff : (u.lane l).service.state ≠ .off := by rw [lane]; exact hoff
      have unum : u.number = s.number := by
        unfold State.number
        rw [hu.agrees.number]
        rfl
      by_cases h16 : s.number % 16 = 0
      · rw [nameLane_reports uoff (unum ▸ h16)] at here
        obtain ⟨due, hdue⟩ := laneReport_lane l u
        rw [hdue, lane] at here
        have comes : ReportComes (surveyHeard pairs (atFilter e lc s)) l := by
          refine hf.reports ?_
          rw [if_pos (show (pairs.any (pairMatches ((atFilter e lc s).laneSettings l).article)) = true from (pairMatches_any _ _).mpr hp),
            nameLane_reports uoff (unum ▸ h16)]
          exact (laneReport_reports l u).2
        refine ⟨by dsimp only [others]; rw [here], fun k => absurd ⟨hoff, hp⟩ k, fun k => absurd h16 k, fun _ _ => ⟨?_, by rw [here]⟩⟩
        exact comes.keepUp.reported (by rw [here])
      · rw [nameLane_delays uoff (unum ▸ h16), lane, unum, hu.agrees.now] at here
        refine ⟨by dsimp only [others]; rw [here], fun k => absurd ⟨hoff, hp⟩ k, fun _ _ => ⟨by rw [here], by rw [here]; rfl⟩,
          fun k => absurd k h16⟩
    · have same : (keepUp (surveyHeard pairs (atFilter e lc s))).lane l = s.lane l := by
        rw [here]
        split
        · next hp =>
          by_cases hoff : (s.lane l).service.state = .off
          · rw [nameLane_off (lane ▸ hoff)]
            exact lane
          · exact absurd ⟨hoff, (pairMatches_any _ _).mp hp⟩ hname
        · exact lane
      exact ⟨plain same, fun _ => same, fun _ k => absurd k hname, fun _ k => absurd k hname⟩
  · obtain ⟨shock, groups⟩ := surveyHeard_shock_groups pairs (atFilter e lc s)
    exact ⟨peersKept.toLaneFrame.surveyHeard pairs (atFilter e lc s), groups, shock, aside.engine⟩

end Sys2Proof.Machine
end


section
/-! PROOF. What a kept RAISE and a kept TAKE do to the alert record and the queue. -/

namespace Sys2Proof.Machine

/-! ## The queue under an alert's event -/

theorem HasPlace.remarked {i : Identity} {p q : List Entry} (h : HasPlace i q) (k : Remarked p q) : HasPlace i p := by
  rcases h with h | ⟨x, hx, hw, hi⟩ | ⟨x, hx, hw, hp⟩
  · exact Or.inl (k.length ▸ h)
  · obtain ⟨y, hy, same⟩ := k.mem hx
    exact Or.inr (Or.inl ⟨y, hy, same.waiting.trans hw, same.body ▸ hi⟩)
  · obtain ⟨y, hy, same⟩ := k.mem hx
    exact Or.inr (Or.inr ⟨y, hy, same.waiting.trans hw, same.body ▸ hp⟩)

theorem RaiseWaits.remarked {g : GroupNo} {r : GroupRecord} {level : Option Shortage} {p q : List Entry} (h : RaiseWaits g r level q)
    (k : Remarked p q) : RaiseWaits g r level p := by
  obtain ⟨x, hx, hw, hb⟩ := h
  obtain ⟨y, hy, same⟩ := k.mem hx
  exact ⟨y, hy, same.waiting.trans hw, same.body.trans hb⟩

/-- A RAISE that finds a place waits with the figures of its group (R152). -/
theorem offerRaise_waits {g : GroupNo} {gr : Group} {s : State} (hg : s.group g = some gr) (hp : HasPlace (.alert g) s.queue) :
    RaiseWaits g gr.record gr.alert.level (offerRaise g s).queue := by
  rw [offerRaise, onGroup_some hg]
  exact offer_waits (b := gr.raiseBody g) rfl hp (fun _ _ => rfl) fun l e => (nomatch e)

theorem offerRaise_group {g h : GroupNo} {s : State} : (offerRaise g s).group h = s.group h := by
  unfold offerRaise State.onGroup
  split
  · exact (offer_agrees _ s).group h
  · rfl

theorem withdrawRaise_group {g h : GroupNo} {s : State} : (withdrawRaise g s).group h = s.group h := (withdrawRaise_agrees g s).group h

/-- A repeated RAISE (R154, R157): only the repeat timer of the record changes. -/
theorem repeatRaise_group {g : GroupNo} {gr : Group} {s : State} (hg : s.group g = some gr) :
    (repeatRaise g s).group g = some { gr with alert := { gr.alert with repeatTimer := some (s.now.addMs s.repeatMs) } } := by
  refine (offerRaise_group.trans ?_)
  refine (updateAlert_origin hg _).2 fun h => h.2 rfl

theorem repeatRaise_waits {g : GroupNo} {gr : Group} {s : State} (hg : s.group g = some gr) (hp : HasPlace (.alert g) s.queue) :
    RaiseWaits g gr.record gr.alert.level (repeatRaise g s).queue :=
  offerRaise_waits (gr := { gr with alert := { gr.alert with repeatTimer := some (s.now.addMs s.repeatMs) } })
    ((updateAlert_origin hg _).2 fun h => h.2 rfl) hp

/-! ## A RAISE heard (R156, R157) -/

theorem exec_raiseReceived {e sender levelCode qualityCode aggregate reorder : Nat} {key mask : Word} {level : Shortage} {g : GroupNo}
    {chars : List Byte} {s : State} (h : Arrives sender (.raise key mask levelCode qualityCode aggregate reorder) chars s)
    (h60 : sender ≤ 60) (found : s.findGroup key mask = some g) (hl : shortageOf levelCode = some level) (hq : qualityCode ≤ 2) :
    ∃ lc, exec (.raiseReceived e chars) s = .next (keepUp (raiseHeard g sender level (atFilter e lc s))) := by
  obtain ⟨lc, hlc⟩ := h.received e
  obtain ⟨-, -, -, -, ne0, -⟩ := id h
  refine ⟨lc, (h.checked_next rfl _).trans ?_⟩
  rw [hlc]
  refine congrArg (fun t => Host.Outcome.next (keepUp t)) ?_
  change filterRaise sender key mask levelCode qualityCode (atFilter e lc s) = _
  unfold filterRaise
  rw [atFilter_findGroup, found, hl]
  exact if_pos (by rw [Bool.and_eq_true]; exact ⟨(isStation_iff sender).mpr ⟨Nat.pos_of_ne_zero ne0, h60⟩, decide_eq_true hq⟩)

/-- A record that enters FOLLOWING at a RAISE heard (R156, R157). -/
def Alert.Follows (raiser : Nat) (level : Shortage) (watchEnds : Time) (a : Alert) : Prop :=
  a.state = .following ∧ a.raiser = some raiser ∧ a.level = some level ∧ a.watch = some watchEnds
    ∧ a.deference = none ∧ a.repeatTimer = none ∧ a.raiseSent = false

theorem Alert.withOrigin_toFollowing (a b : Alert) (raiser : Nat) (level : Shortage) (watchEnds now : Time) :
    (b.withOrigin (a.toFollowing (some raiser) (some level) watchEnds) now).Follows raiser level watchEnds := by
  unfold Alert.withOrigin
  split <;> exact ⟨rfl, rfl, rfl, rfl, rfl, rfl, rfl⟩

/-- What a RAISE heard makes of the group, by the state of its alert record. -/
theorem raiseHeard_group {g : GroupNo} {gr : Group} {sender : Nat} {level : Shortage} {s : State} (hg : s.group g = some gr) :
    let watchEnds := s.now.addMs s.watchMs
    let u := s.updateAlert g (Alert.toFollowing (some sender) (some level) watchEnds)
    (gr.alert.state = .clear ∨ gr.alert.state = .pending → raiseHeard g sender level s = u)
      ∧ (gr.alert.state = .following → raiseHeard g sender level s
        = s.updateAlert g (Alert.toFollowing (some (lowerRaiser gr.alert.raiser sender)) (some level) watchEnds))
      ∧ (gr.alert.state = .taken ∨ gr.alert.state = .suspended → raiseHeard g sender level s = s)
      ∧ (gr.alert.state = .raised → sender < s.number → raiseHeard g sender level s = withdrawRaise g u)
      ∧ (gr.alert.state = .raised → ¬ sender < s.number → raiseHeard g sender level s = repeatRaise g s) := by
  have start := onGroup_some hg
  refine ⟨fun h => ?_, fun h => ?_, fun h => ?_, fun h hs => ?_, fun h hs => ?_⟩ <;> rw [raiseHeard, start]
  · rcases h with h | h <;> rw [h]
  · rw [h]
  · rcases h with h | h <;> rw [h]
  · rw [h]
    exact if_pos hs
  · rw [h]
    exact if_neg hs

/-- Settles O27, by the state of the alert record. -/
theorem raiseHeardFollowsYieldsOrAnswers : Obligations.RaiseHeardFollowsYieldsOrAnswers := by
  intro e sender levelCode qualityCode aggregate reorder key mask level g gr chars s arrives h60 found hg hl hq watchEnds follows
  obtain ⟨lc, runs⟩ := exec_raiseReceived (e := e) arrives h60 found hl hq
  let u := atFilter e lc s
  have there : u.group g = some gr := hg
  have marks : Remarked u.queue s.queue := atFilter_remarked e lc s
  have same := raiseHeard_agrees g sender level u
  obtain ⟨fresh, lower, stays, yields, answers⟩ := raiseHeard_group (sender := sender) (level := level) there
  have frame : (keepUp (raiseHeard g sender level u)).peers = s.peers ∧ (keepUp (raiseHeard g sender level u)).shock = s.shock
      ∧ (keepUp (raiseHeard g sender level u)).engine = s.engine := ⟨same.peers, same.shock, same.engine⟩
  have following (raiser : Nat) (a : Alert) (now : Time) :
      follows raiser (gr.alert.withOrigin (a.toFollowing (some raiser) (some level) watchEnds) now) :=
    Alert.withOrigin_toFollowing a gr.alert raiser level watchEnds now
  have result {t : State} {after : Group} (h : raiseHeard g sender level u = t) (ht : t.group g = some after) :
      (keepUp (raiseHeard g sender level u)).group g = some after := by rw [keepUp_group, h, ht]
  cases state : gr.alert.state with
  | clear =>
    refine ⟨_, _, runs, result (fresh (Or.inl state)) (updateAlert_group there _), rfl, fun _ => following .., ?_, ?_, ?_, ?_, frame⟩
    all_goals simp
  | pending =>
    refine ⟨_, _, runs, result (fresh (Or.inr state)) (updateAlert_group there _), rfl, fun _ => following .., ?_, ?_, ?_, ?_, frame⟩
    all_goals simp
  | following =>
    refine ⟨_, _, runs, result (lower state) (updateAlert_group there _), rfl, ?_, fun _ => following .., ?_, ?_, ?_, frame⟩
    all_goals simp
  | taken =>
    refine ⟨_, gr, runs, result (stays (Or.inl state)) there, rfl, ?_, ?_, fun _ => rfl, ?_, ?_, frame⟩
    all_goals simp
  | suspended =>
    refine ⟨_, gr, runs, result (stays (Or.inr state)) there, rfl, ?_, ?_, fun _ => rfl, ?_, ?_, frame⟩
    all_goals simp
  | raised =>
    by_cases hs : sender < s.number
    · have done := yields state hs
      refine ⟨_, _, runs, result done (withdrawRaise_group.trans (updateAlert_group there _)), rfl, ?_, ?_, ?_,
        fun _ _ => ⟨following .., ?_⟩, fun _ k => absurd hs (by omega), frame⟩
      · simp
      · simp
      · simp
      · rw [done]
        exact (withdrawRaise_withdrawn g _).remarked (keepUp_remarked _)
    · have done := answers state hs
      refine ⟨_, _, runs, result done (repeatRaise_group there), rfl, ?_, ?_, ?_, fun _ k => absurd k hs,
        fun _ _ => ⟨state, rfl, rfl, rfl, fun hp => ?_⟩, frame⟩
      · simp
      · simp
      · simp
      · rw [done]
        exact (repeatRaise_waits there (hp.remarked marks)).remarked (keepUp_remarked _)

/-! ## A TAKE (R160) -/

theorem exec_take {e sender minutes : Nat} {key mask : Word} {terminal : Byte} {g : GroupNo} {chars : List Byte} {s : State}
    (h : Arrives sender (.take key mask terminal minutes) chars s) (h61 : 61 ≤ sender) (h63 : sender ≤ 63) (hm : minutes ≠ 0)
    (found : s.findGroup key mask = some g) :
    ∃ lc, exec (.take e chars) s = .next (keepUp (takeHeard g terminal minutes (atFilter e lc s))) := by
  obtain ⟨lc, hlc⟩ := h.received e
  refine ⟨lc, (h.checked_next (test := RxBody.isTake) (decide_eq_true hm) _).trans ?_⟩
  rw [hlc]
  refine congrArg (fun t => Host.Outcome.next (keepUp t)) ?_
  change filterTake sender key mask terminal minutes (atFilter e lc s) = _
  refine (fromGateway_kept h61 h63 _ _).trans ?_
  rw [atFilter_findGroup, found]
  exact if_neg hm

/-- What a TAKE makes of the group, by the state of its alert record. -/
theorem takeHeard_group {g : GroupNo} {gr : Group} {terminal : Byte} {minutes : Nat} {s : State} (hg : s.group g = some gr) :
    let ends := s.now.addMs (minutes * 60000)
    (gr.alert.state = .pending ∨ gr.alert.state = .raised ∨ gr.alert.state = .following →
      takeHeard g terminal minutes s = withdrawRaise g (s.updateAlert g (Alert.toTaken ends terminal)))
      ∧ (gr.alert.state = .taken →
        takeHeard g terminal minutes s = s.updateAlert g fun a => { a with takenUntil := some ends, terminal := terminal })
      ∧ (gr.alert.state = .clear ∨ gr.alert.state = .suspended → takeHeard g terminal minutes s = refuseGateway s) := by
  have start := onGroup_some hg
  refine ⟨fun h => ?_, fun h => ?_, fun h => ?_⟩ <;> rw [takeHeard, start]
  · rcases h with h | h | h <;> rw [h]
  · rw [h]
  · rcases h with h | h <;> rw [h]

theorem shockKept : PeerFrame fun t s => t.shock = s.shock where
  refl _ := rfl
  trans h k := h.trans k
  spend _ := rfl
  coalesced _ _ _ := rfl
  appended _ _ _ _ := rfl
  evicted _ _ _ _ _ _ := rfl
  withdrawn _ _ := rfl
  counted _ _ _ := rfl
  reportDue _ _ _ := rfl
  survey _ := rfl
  group _ _ _ := rfl
  peers _ _ := rfl

/-- Settles O29, by the state of the alert record. -/
theorem takeHeardTakesTheAlert : Obligations.TakeHeardTakesTheAlert := by
  intro e sender minutes key mask terminal g gr chars s arrives h61 h63 hm found hg taken
  obtain ⟨lc, runs⟩ := exec_take (e := e) arrives h61 h63 hm found
  let u := atFilter e lc s
  have there : u.group g = some gr := hg
  obtain ⟨takes, again, refuses⟩ := takeHeard_group (terminal := terminal) (minutes := minutes) there
  have frame : (keepUp (takeHeard g terminal minutes u)).peers = s.peers ∧ (keepUp (takeHeard g terminal minutes u)).shock = s.shock
      ∧ (keepUp (takeHeard g terminal minutes u)).engine = s.engine :=
    ⟨peersKept.takeHeard g terminal minutes u, shockKept.takeHeard g terminal minutes u, engineKept.takeHeard g terminal minutes u⟩
  have taken_is (a : Alert) (now : Time) (ends : Time) (he : ends = (at' e s).addMs (minutes * 60000)) (ha : a.level = gr.alert.level) :
      let b := gr.alert.withOrigin (a.toTaken ends terminal) now
      taken b ∧ b.deference = none ∧ b.repeatTimer = none ∧ b.watch = none ∧ b.raiser = none ∧ b.raiseSent = false := by
    subst he
    unfold Alert.withOrigin
    split <;> exact ⟨⟨rfl, rfl, rfl, ha⟩, rfl, rfl, rfl, rfl, rfl⟩
  by_cases h1 : gr.alert.state = .pending ∨ gr.alert.state = .raised ∨ gr.alert.state = .following
  · have done := takes h1
    have here := (withdrawRaise_group (g := g)).trans (updateAlert_group there (Alert.toTaken (u.now.addMs (minutes * 60000)) terminal))
    rw [← done] at here
    refine ⟨_, _, runs, here, rfl, fun _ => ?_, ?_, ?_, frame⟩
    · obtain ⟨h2, h3, h4, h5, h6, h7⟩ := taken_is gr.alert u.now _ rfl rfl
      refine ⟨h2, h3, h4, h5, h6, h7, ?_⟩
      rw [done]
      exact (withdrawRaise_withdrawn g _).remarked (keepUp_remarked _)
    · intro k
      rw [k] at h1
      simp at h1
    · intro k
      rcases k with k | k <;> rw [k] at h1 <;> simp at h1
  · by_cases h2 : gr.alert.state = .taken
    · have done := again h2
      have here := updateAlert_group there fun a =>
        { a with takenUntil := some (u.now.addMs (minutes * 60000)), terminal := terminal }
      rw [← done] at here
      refine ⟨_, _, runs, here, rfl, fun k => absurd k h1, fun _ => ?_, ?_, frame⟩
      · have : taken (gr.alert.withOrigin { gr.alert with
            takenUntil := some ((at' e s).addMs (minutes * 60000)), terminal := terminal } u.now) := by
          unfold Alert.withOrigin
          split <;> exact ⟨h2, rfl, rfl, rfl⟩
        exact this
      · intro k
        rcases k with k | k <;> rw [k] at h2 <;> cases h2
    · have refused : gr.alert.state = .clear ∨ gr.alert.state = .suspended := by
        revert h1 h2
        cases gr.alert.state <;> simp
      have done := refuses refused
      refine ⟨_, gr, runs, (by rw [keepUp_group, done]; exact there), rfl, fun k => absurd k h1, fun k => absurd k h2, fun _ => ⟨rfl, ?_⟩, frame⟩
      rw [keepUp_station, done]
      rfl

end Sys2Proof.Machine
end


section
/-! PROOF. The Peer Stock Table: a STOCK that is kept, the ageing of an entry, and what the groups take of both. -/

namespace Sys2Proof.Machine

/-! ## What an evaluation sees -/

theorem State.AgreesButAisle.symm {s t : State} (h : t.AgreesButAisle s) : s.AgreesButAisle t := Eq.symm h

/-- An evaluation in a state that differs from the one an event leaves in the queue and the groups alone. -/
theorem evaluates_keepUp {e : Nat} {s u w : State} {g : GroupNo} {before after : Group} (hu : u.AgreesButAisle w)
    (hn : w.now = at' e s) (hg : u.group g = some before) (ha : (evaluate g u).group g = some after) :
    Evaluates e s (keepUp w) (keepUp w).peers g before after :=
  ⟨u, hg, hu.now.trans hn, hu.peers, hu.phase, hu.config, hu.number,
    fun l _ => ⟨hu.laneState l, congrArg Counter.count (hu.counter l), congrArg Counter.confidence (hu.counter l)⟩, ha⟩

/-- An evaluation leaves the group there. -/
theorem evaluate_group {g : GroupNo} {s : State} {gr : Group} (h : s.group g = some gr) :
    ∃ after, (evaluate g s).group g = some after :=
  let ⟨after, ha, _⟩ := evaluate_record g s gr h
  ⟨after, ha⟩

theorem setMembership_group {g : GroupNo} {s : State} {gr : Group} (h : s.group g = some gr) :
    (setMembership g s).group g = some (gr.flagged true) := by
  rw [setMembership, State.updateRecord, updateGroup_group_self, h]
  rfl

/-- The group as an evaluation that may set the flag first finds it (R136). -/
theorem flagged_group {g : GroupNo} {s : State} {gr : Group} (h : s.group g = some gr) (moves : Bool) :
    (if moves then setMembership g s else s : State).group g = some (gr.flagged (gr.record.membershipChanged || moves)) := by
  cases moves with
  | true =>
    rw [Bool.or_true]
    exact setMembership_group h
  | false =>
    rw [Bool.or_false]
    exact h

theorem flagged_agrees (g : GroupNo) (s : State) (moves : Bool) :
    (if moves then setMembership g s else s : State).AgreesButAisle s := by
  split
  · exact setMembership_agrees g s
  · exact .refl s

/-- An evaluation keeps the flag (R142). -/
theorem evaluate_flag {g : GroupNo} {s : State} {gr after : Group} (h : s.group g = some gr)
    (ha : (evaluate g s).group g = some after) : after.record.membershipChanged = gr.record.membershipChanged
      ∧ after.record.key = gr.record.key ∧ after.record.mask = gr.record.mask := by
  obtain ⟨x, hx, hr⟩ := evaluate_record g s gr h
  rw [ha] at hx
  injection hx with hx
  rw [hx, hr]
  exact ⟨rfl, rfl, rfl⟩

/-! ## Notices (R126, R136) -/

/-- A side of a notice that holds an article of the group. -/
abbrev Group.holdsSide (gr : Group) (x : Option PeerEntry) : Prop :=
  ∃ y, x = some y ∧ y.article &&& gr.record.mask = gr.record.key

theorem matchesRecord_iff (gr : Group) (y : PeerEntry) :
    y.matchesRecord gr.record = true ↔ y.article &&& gr.record.mask = gr.record.key := by
  unfold PeerEntry.matchesRecord matchesGroup
  rw [beq_iff_eq]

theorem filter_matches (gr : Group) (x : Option PeerEntry) :
    (gr.holdsSide x → x.filter (PeerEntry.matchesRecord gr.record) = x)
      ∧ (¬ gr.holdsSide x → x.filter (PeerEntry.matchesRecord gr.record) = none) := by
  cases x with
  | none => exact ⟨fun _ => rfl, fun _ => rfl⟩
  | some y =>
    refine ⟨fun ⟨z, hz, hm⟩ => ?_, fun h => ?_⟩
    · injection hz with hz
      subst hz
      simp [Option.filter, (matchesRecord_iff gr y).mpr hm]
    · have : y.matchesRecord gr.record = false :=
        Bool.eq_false_iff.mpr fun k => h ⟨y, rfl, (matchesRecord_iff gr y).mp k⟩
      simp [Option.filter, this]

theorem membershipMoves_iff (a b : LaneState) (c d : Confidence) : membershipMoves a b c d = true ↔ Moves a b c d := by
  unfold membershipMoves Moves
  simp only [Bool.or_eq_true, bne_iff_ne, ne_eq, decide_eq_decide]

/-- Whether a notice sets the flag of a group that holds a side of it (R136). -/
theorem noticeMoves_iff (gr : Group) (before after : Option PeerEntry) (h : gr.holdsSide before ∨ gr.holdsSide after) :
    noticeMoves (before.filter (PeerEntry.matchesRecord gr.record)) (after.filter (PeerEntry.matchesRecord gr.record)) = true
      ↔ ¬(gr.holdsSide before ↔ gr.holdsSide after)
        ∨ ∃ b a, before = some b ∧ after = some a ∧ gr.holdsSide before ∧ gr.holdsSide after
          ∧ Moves b.state a.state b.confidence a.confidence := by
  by_cases hb : gr.holdsSide before <;> by_cases ha : gr.holdsSide after
  · rw [(filter_matches gr before).1 hb, (filter_matches gr after).1 ha]
    obtain ⟨b, rfl, -⟩ := id hb
    obtain ⟨a, rfl, -⟩ := id ha
    refine (membershipMoves_iff _ _ _ _).trans ⟨fun m => Or.inr ⟨b, a, rfl, rfl, hb, ha, m⟩, ?_⟩
    rintro (k | ⟨b', a', hb', ha', -, -, m⟩)
    · exact absurd (iff_of_true hb ha) k
    · injection hb' with hb'
      injection ha' with ha'
      subst hb' ha'
      exact m
  · rw [(filter_matches gr before).1 hb, (filter_matches gr after).2 ha]
    obtain ⟨b, rfl, -⟩ := id hb
    exact iff_of_true rfl (Or.inl fun k => ha (k.mp hb))
  · rw [(filter_matches gr before).2 hb, (filter_matches gr after).1 ha]
    obtain ⟨a, rfl, -⟩ := id ha
    exact iff_of_true rfl (Or.inl fun k => hb (k.mpr ha))
  · exact absurd h (not_or.mpr ⟨hb, ha⟩)

/-- A group that holds neither side of a notice stays (R126). -/
theorem groupTakesNotice_none {before after : Option PeerEntry} {g : GroupNo} {s : State} {gr : Group} (hg : s.group g = some gr)
    (hb : ¬ gr.holdsSide before) (ha : ¬ gr.holdsSide after) : groupTakesNotice before after g s = s := by
  rw [groupTakesNotice, onGroup_some hg]
  dsimp only
  rw [(filter_matches gr before).2 hb, (filter_matches gr after).2 ha]
  rfl

theorem groupTakesNotice_some {before after : Option PeerEntry} {g : GroupNo} {s : State} {gr : Group} (hg : s.group g = some gr)
    (h : gr.holdsSide before ∨ gr.holdsSide after) : groupTakesNotice before after g s
      = evaluate g (if noticeMoves (before.filter (PeerEntry.matchesRecord gr.record))
        (after.filter (PeerEntry.matchesRecord gr.record)) then setMembership g s else s) := by
  rw [groupTakesNotice, onGroup_some hg]
  refine if_pos ?_
  rw [Bool.or_eq_true]
  refine h.imp (fun k => ?_) fun k => ?_
  · rw [(filter_matches gr before).1 k]
    obtain ⟨y, rfl, -⟩ := k
    rfl
  · rw [(filter_matches gr after).1 k]
    obtain ⟨y, rfl, -⟩ := k
    rfl

/-- What a group takes of a notice: nothing, or one evaluation in a state that differs in queue and groups alone, its flag set by the
notice or not (R126, R136, R143). -/
theorem notice_group {before after : Option PeerEntry} {g : GroupNo} {v : State} {gr : Group} (hg : v.group g = some gr) :
    (¬ gr.holdsSide before → ¬ gr.holdsSide after → (notice before after v).group g = some gr)
      ∧ (gr.holdsSide before ∨ gr.holdsSide after → ∃ u done, u.AgreesButAisle (notice before after v)
        ∧ u.group g = some (gr.flagged (gr.record.membershipChanged || noticeMoves
            (before.filter (PeerEntry.matchesRecord gr.record)) (after.filter (PeerEntry.matchesRecord gr.record))))
        ∧ (evaluate g u).group g = some done ∧ (notice before after v).group g = some done) := by
  obtain ⟨u, hu, hgu, he⟩ := eachGroup_group (groupTakesNotice_agrees before after) (groupTakesNotice_only before after) g v
  have there : u.group g = some gr := hgu.trans hg
  have agrees : u.AgreesButAisle (notice before after v) := hu.trans (notice_agrees before after v).symm
  refine ⟨fun hb ha => ?_, fun h => ?_⟩
  · rw [groupTakesNotice_none there hb ha, there] at he
    exact he
  · rw [groupTakesNotice_some there h] at he
    obtain ⟨done, hdone⟩ := evaluate_group (flagged_group there (noticeMoves (before.filter (PeerEntry.matchesRecord gr.record))
        (after.filter (PeerEntry.matchesRecord gr.record))))
    exact ⟨_, done, (flagged_agrees g u _).trans agrees, flagged_group there _, hdone, he.trans hdone⟩

/-- What every group takes of a notice (R126, R136, R143). -/
theorem notice_taken {e : Nat} {before after : Option PeerEntry} {s v : State} (groups : v.groups = s.groups) (now : v.now = at' e s) :
    NoticeTaken e before after s (keepUp (notice before after v)) := by
  intro g gr hg holds
  have there : v.group g = some gr := (congrArg (Four.get · g) groups).trans hg
  obtain ⟨stays, takes⟩ := notice_group (before := before) (after := after) there
  refine ⟨stays, fun h => ?_⟩
  obtain ⟨u, done, hu, hgu, hdone, ht⟩ := takes h
  refine ⟨_, done, ht, evaluates_keepUp hu ((notice_agrees before after v).now.trans now) hgu hdone, ?_⟩
  rw [Bool.or_eq_true]
  exact or_congr Iff.rfl (noticeMoves_iff gr before after h)

/-- What every group takes of a replacement: two notices, both with the table as it stands after both (R121, R126). -/
theorem replacement_taken {e : Nat} {old new : PeerEntry} {s v : State} (groups : v.groups = s.groups) (now : v.now = at' e s) :
    ReplacementTaken e old new s (keepUp (notice none (some new) (notice (some old) none v))) := by
  intro g gr hg holds evaluated
  have there : v.group g = some gr := (congrArg (Four.get · g) groups).trans hg
  have side (x : PeerEntry) : gr.holdsSide (some x) ↔ holds x :=
    ⟨fun ⟨y, hy, k⟩ => by injection hy with hy; subst hy; exact k, fun k => ⟨x, rfl, k⟩⟩
  have absent : ¬ gr.holdsSide none := fun ⟨_, k, _⟩ => (nomatch k)
  have mid := notice_agrees (some old) none v
  have last := notice_agrees none (some new) (notice (some old) none v)
  have clock : (notice none (some new) (notice (some old) none v)).now = at' e s := last.now.trans (mid.now.trans now)
  obtain ⟨stays, takes⟩ := notice_group (before := some old) (after := none) there
  have flagOld (h : holds old) : (gr.record.membershipChanged || noticeMoves ((some old).filter (PeerEntry.matchesRecord gr.record))
      ((none : Option PeerEntry).filter (PeerEntry.matchesRecord gr.record))) = true := by
    rw [(filter_matches gr (some old)).1 ((side old).mpr h)]
    exact Bool.or_true _
  refine ⟨fun ho hn => ?_, fun h => ?_, fun ho hn => ?_⟩
  · have first := stays (fun k => ho ((side old).mp k)) absent
    exact (notice_group first).1 absent fun k => hn ((side new).mp k)
  · by_cases ho : holds old
    · have hn : ¬ holds new := fun k => h (iff_of_true ho k)
      obtain ⟨u, done, hu, hgu, hdone, ht⟩ := takes (Or.inl ((side old).mpr ho))
      rw [flagOld ho] at hgu
      have same := evaluate_flag hgu hdone
      have ends := (notice_group (before := none) (after := some new) ht).1 (fun ⟨_, k, _⟩ => (nomatch k)) fun ⟨y, hy, k⟩ => by
        injection hy with hy
        subst hy
        rw [same.2.1, same.2.2] at k
        exact hn k
      exact ⟨done, ends, evaluates_keepUp (hu.trans last.symm) clock hgu hdone⟩
    · have hn : holds new := by
        by_contra k
        exact h (iff_of_false ho k)
      have first := stays (fun k => ho ((side old).mp k)) absent
      obtain ⟨u, done, hu, hgu, hdone, ht⟩ := (notice_group (before := none) (after := some new) first).2 (Or.inr ((side new).mpr hn))
      rw [(filter_matches gr (some new)).1 ((side new).mpr hn)] at hgu
      have flag : (gr.record.membershipChanged || noticeMoves ((none : Option PeerEntry).filter (PeerEntry.matchesRecord gr.record))
          (some new)) = true := Bool.or_true _
      rw [flag] at hgu
      exact ⟨done, ht, evaluates_keepUp hu clock hgu hdone⟩
  · obtain ⟨u, first, hu, hgu, hfirst, ht⟩ := takes (Or.inl ((side old).mpr ho))
    rw [flagOld ho] at hgu
    obtain ⟨flag, key, mask⟩ := evaluate_flag hgu hfirst
    have newSide : first.holdsSide (some new) := ⟨new, rfl, by rw [key, mask]; exact hn⟩
    obtain ⟨u', done, hu', hgu', hdone, ht'⟩ := (notice_group (before := none) (after := some new) ht).2 (Or.inr newSide)
    have already : first.record.membershipChanged = true := flag
    rw [already, Bool.true_or] at hgu'
    have same : first.flagged true = first := by
      unfold Group.flagged
      rw [← already]
    rw [same] at hgu'
    exact ⟨first, done, evaluates_keepUp (hu.trans last.symm) clock hgu hfirst, ht', evaluates_keepUp hu' clock hgu' hdone⟩

/-! ## The entry that gives way (R121) -/

theorem oldestStale_stale {ps : List PeerEntry} {o : PeerEntry} (h : oldestStale ps = some o) : o.age = .stale := by
  induction ps with
  | nil => cases h
  | cons a l ih =>
    unfold oldestStale at h
    split at h
    · next ha =>
      split at h
      · next b hb =>
        split at h
        · injection h with h
          rw [← h]
          exact ha
        · injection h with h
          exact ih (h ▸ hb)
      · injection h with h
        rw [← h]
        exact ha
    · exact ih h

theorem oldestStale_none {ps : List PeerEntry} (h : ∀ x ∈ ps, x.age = .fresh) : oldestStale ps = none := by
  cases ho : oldestStale ps with
  | none => rfl
  | some o =>
    have := h o (oldestStale_mem ho)
    rw [oldestStale_stale ho] at this
    cases this

theorem notAfter_refl (t : Time) : t.notAfter t = true := by
  simp [Time.notAfter, Time.msFrom]

/-- The STALE entry that is older than every other, or as old and first in key order, gives way. -/
theorem oldestStale_eq {ps : List PeerEntry} {old : PeerEntry} (sorted : (ps.map PeerEntry.keyOrder).Pairwise (· < ·)) (hm : old ∈ ps)
    (hs : old.age = .stale) (h : ∀ x ∈ ps, x.age = .stale →
      x.arrival.notAfter old.arrival = false ∧ old.arrival.notAfter x.arrival = true
        ∨ x.arrival = old.arrival ∧ old.keyOrder ≤ x.keyOrder) : oldestStale ps = some old := by
  induction ps with
  | nil => cases hm
  | cons a l ih =>
    rw [List.map_cons, List.pairwise_cons] at sorted
    obtain ⟨first, sorted⟩ := sorted
    unfold oldestStale
    by_cases e : a = old
    · subst e
      rw [if_pos hs]
      split
      · next o ho =>
        refine if_pos ?_
        rcases h o (List.mem_cons_of_mem _ (oldestStale_mem ho)) (oldestStale_stale ho) with ⟨-, k⟩ | ⟨k, -⟩
        · exact k
        · rw [k]
          exact notAfter_refl _
      · rfl
    · have hm := (List.mem_cons.mp hm).resolve_left (Ne.symm e)
      have later := first _ (List.mem_map_of_mem hm)
      rw [ih sorted hm fun x hx => h x (List.mem_cons_of_mem a hx)]
      split
      · next ha =>
        refine if_neg ?_
        rcases h a List.mem_cons_self ha with ⟨k, -⟩ | ⟨-, k⟩
        · rw [k]
          exact Bool.false_ne_true
        · omega
      · rfl

/-! ## A STOCK that is kept (R118 to R122) -/

theorem findPeer_key {sender : Nat} {lane : LaneNo} {ps : List PeerEntry} {x : PeerEntry} (h : findPeer sender lane ps = some x) :
    x.sender = sender ∧ x.lane = lane := by
  have k := List.find?_some h
  unfold PeerEntry.hasKey at k
  rwa [Bool.and_eq_true, decide_eq_true_iff, decide_eq_true_iff] at k

theorem sameContents_iff {a b : PeerEntry} (hs : a.sender = b.sender) (hl : a.lane = b.lane) :
    a.sameContents b = true ↔ a = { b with arrival := a.arrival } := by
  unfold PeerEntry.sameContents
  simp only [Bool.and_eq_true, decide_eq_true_iff]
  constructor
  · rintro ⟨⟨⟨⟨⟨h1, h2⟩, h3⟩, h4⟩, h5⟩, h6⟩
    cases a
    cases b
    simp_all
  · intro h
    rw [h]
    exact ⟨⟨⟨⟨⟨rfl, rfl⟩, rfl⟩, rfl⟩, rfl⟩, rfl⟩

theorem stockReport_eq {sender : Nat} {lane : LaneNo} {article : Word} {pack count stateCode confidenceCode : Nat} {arrival : Time}
    {state : LaneState} {confidence : Confidence} (hs : stockState stateCode = some state)
    (hc : confidenceOf confidenceCode = some confidence) :
    stockReport sender lane.val article pack count stateCode confidenceCode arrival
      = some ⟨sender, lane, article, if pack = 0 then 1 else pack, count, state, confidence, arrival, .fresh⟩ := by
  unfold stockReport
  rw [dif_pos lane.isLt, hs, hc]

theorem exec_stockReceived {e sender : Nat} {lane : LaneNo} {article : Word} {pack count stateCode confidenceCode : Nat}
    {state : LaneState} {confidence : Confidence} {chars : List Byte} {s : State}
    (h : Arrives sender (.stock lane.val article pack count stateCode confidenceCode) chars s) (h60 : sender ≤ 60)
    (hs : stockState stateCode = some state) (hc : confidenceOf confidenceCode = some confidence)
    (ha : s.holdsArticle article = true) :
    ∃ lc, exec (.stockReceived e chars) s = .next (keepUp (takeReport
      ⟨sender, lane, article, if pack = 0 then 1 else pack, count, state, confidence, at' e s, .fresh⟩ (atFilter e lc s))) := by
  obtain ⟨lc, hlc⟩ := h.received e
  obtain ⟨-, -, -, -, ne0, -⟩ := id h
  refine ⟨lc, (h.checked_next rfl _).trans ?_⟩
  rw [hlc]
  refine congrArg (fun t => Host.Outcome.next (keepUp t)) ?_
  change filterStock sender (stockReport sender lane.val article pack count stateCode confidenceCode (at' e s)) (atFilter e lc s) = _
  rw [stockReport_eq hs hc]
  have holds : (atFilter e lc s).holdsArticle article = true := ha
  exact if_pos (by rw [Bool.and_eq_true]; exact ⟨(isStation_iff sender).mpr ⟨Nat.pos_of_ne_zero ne0, h60⟩, holds⟩)

theorem takeReport_overwrites {x old : PeerEntry} {s : State} (h : findPeer x.sender x.lane s.peers = some old) :
    takeReport x s = overwriteReport old x s := by
  unfold takeReport
  rw [h]

theorem takeReport_inserts {x : PeerEntry} {s : State} (h : findPeer x.sender x.lane s.peers = none) (hl : s.peers.length < 48) :
    takeReport x s = insertReport x s := by
  unfold takeReport
  rw [h]
  exact if_pos hl

theorem takeReport_full {x : PeerEntry} {s : State} (h : findPeer x.sender x.lane s.peers = none) (hl : 48 ≤ s.peers.length) :
    (∀ old, oldestStale s.peers = some old → takeReport x s = replaceReport old x s)
      ∧ (oldestStale s.peers = none → takeReport x s = s.count .tableFullDrops 1) := by
  have full : ¬ s.peers.length < peerCapacity := by unfold peerCapacity; omega
  refine ⟨fun old ho => ?_, fun ho => ?_⟩ <;> unfold takeReport <;> rw [h] <;> dsimp only <;> rw [if_neg full, ho]

/-- Settles O24, by the place that the report finds in the table. -/
theorem stockReachesTheTable : Obligations.StockReachesTheTable := by
  intro e sender lane article pack count stateCode confidenceCode state confidence chars s arrives h60 hs hc ha entry
  obtain ⟨lc, runs⟩ := exec_stockReceived (e := e) arrives h60 hs hc ha
  let u := atFilter e lc s
  refine ⟨_, runs, fun old hf => ?_, fun hf hl => ?_, fun hf hl sound old hm hold hoff => ?_, fun hf hl hfresh => ?_,
    engineKeptByPeers.takeReport entry u, shockKept.takeReport entry u, (aside_peers.takeReport entry u).counter⟩
  · have is : takeReport entry u = overwriteReport old entry u := takeReport_overwrites (s := u) hf
    obtain ⟨hsender, hlane⟩ := findPeer_key hf
    have contents := sameContents_iff (a := old) (b := entry) hsender hlane
    rw [show (⟨sender, lane, article, if pack = 0 then 1 else pack, count, state, confidence, at' e s, .fresh⟩ : PeerEntry) = entry from rfl,
      is]
    unfold overwriteReport
    dsimp only
    by_cases hsame : old = { entry with arrival := old.arrival }
    · rw [if_pos (contents.mpr hsame)]
      exact ⟨rfl, fun k => absurd hsame k, fun _ => rfl⟩
    · rw [if_neg fun k => hsame (contents.mp k)]
      exact ⟨notice_peers _ _ _, fun _ => notice_taken rfl rfl, fun k => absurd k hsame⟩
  · have is : takeReport entry u = insertReport entry u := takeReport_inserts (s := u) hf hl
    rw [show (⟨sender, lane, article, if pack = 0 then 1 else pack, count, state, confidence, at' e s, .fresh⟩ : PeerEntry) = entry from rfl,
      is]
    exact ⟨notice_peers _ _ _, notice_taken rfl rfl⟩
  · have oldest : oldestStale u.peers = some old := oldestStale_eq sound.2 hm hold hoff
    have is : takeReport entry u = replaceReport old entry u := (takeReport_full (s := u) hf hl).1 old oldest
    rw [show (⟨sender, lane, article, if pack = 0 then 1 else pack, count, state, confidence, at' e s, .fresh⟩ : PeerEntry) = entry from rfl,
      is]
    exact ⟨replaceReport_peers old entry u, replacement_taken rfl rfl⟩
  · have is : takeReport entry u = u.count .tableFullDrops 1 := (takeReport_full (s := u) hf hl).2 (oldestStale_none hfresh)
    rw [show (⟨sender, lane, article, if pack = 0 then 1 else pack, count, state, confidence, at' e s, .fresh⟩ : PeerEntry) = entry from rfl,
      is]
    exact ⟨rfl, rfl, rfl⟩

/-! ## The ageing of an entry (R123, R124) -/

/-- Settles O45: an aged and a forgotten entry are one notice each. -/
theorem peerEntriesAgeAndLeave : Obligations.PeerEntriesAgeAndLeave := by
  intro e sender lane x s awake hf
  have found : findPeer sender lane (passTime e s).peers = some x := hf
  refine ⟨fun hfresh hlim hold => ?_, fun hold => ?_⟩
  · have conditions : x.age = .fresh ∧ (passTime e s).staleMs < (passTime e s).forgetMs
        ∧ x.arrival.olderThan (passTime e s).now (passTime e s).staleMs = true := by
      have ms : (passTime e s).staleMs = s.settings.reportIntervalS * 3000 := by
        unfold State.staleMs
        rw [passTime_settings]
        omega
      exact ⟨hfresh, by rw [ms]; exact hlim, by rw [ms]; exact hold⟩
    let v : State := { passTime e s with peers := overwritePeer { x with age := .stale } s.peers }
    have is : ageEntry sender lane (passTime e s) = notice (some x) (some { x with age := .stale }) v := by
      unfold ageEntry
      rw [found]
      exact if_pos conditions
    have runs : exec (.entryAged e sender lane) s = .next (keepUp (notice (some x) (some { x with age := .stale }) v)) :=
      exec_timed rfl awake is
    exact ⟨_, runs, notice_peers _ _ _, notice_taken rfl rfl, engineKept.notice _ _ v, shockKept.notice _ _ v,
      (notice_agrees _ _ v).counter⟩
  · let v : State := { passTime e s with peers := removePeer sender lane s.peers }
    have is : forgetEntry sender lane (passTime e s) = notice (some x) none v := by
      unfold forgetEntry
      rw [found]
      exact if_pos hold
    have runs : exec (.entryForgotten e sender lane) s = .next (keepUp (notice (some x) none v)) := exec_timed rfl awake is
    exact ⟨_, runs, notice_peers _ _ _, notice_taken rfl rfl, engineKept.notice _ _ v, shockKept.notice _ _ v,
      (notice_agrees _ _ v).counter⟩

end Sys2Proof.Machine
end


section
/-! PROOF. The line: the busy marks, line errors, the two timers of the line and the times of the queue. -/

namespace Sys2Proof.Machine

/-! ## LISTEN-ONLY reaches every group (R98, R165) -/

section
variable {before after : Alert} {now : Time}

theorem Alert.withOrigin_raiseSent : (before.withOrigin after now).raiseSent = after.raiseSent := by
  unfold Alert.withOrigin; split <;> rfl

theorem Alert.withOrigin_repeatTimer : (before.withOrigin after now).repeatTimer = after.repeatTimer := by
  unfold Alert.withOrigin; split <;> rfl

end

theorem alertListenOnly_only (g : GroupNo) (s : State) : (alertListenOnly g s).OnlyGroup g s :=
  onGroup_only (fun _ s => by
    split
    · exact (withdrawRaise_only g g _).trans (updateAlert_only g _ s)
    · exact .refl s) s

theorem alertListenOnly_raised {g : GroupNo} {gr : Group} {s : State} (hg : s.group g = some gr) (hr : gr.alert.state = .raised) :
    alertListenOnly g s = withdrawRaise g (s.updateAlert g fun a => a.toFollowing none a.level (s.now.addMs s.watchMs)) := by
  rw [alertListenOnly, onGroup_some hg]
  exact if_pos hr

theorem alertListenOnly_other {g : GroupNo} {gr : Group} {s : State} (hg : s.group g = some gr) (hr : gr.alert.state ≠ .raised) :
    alertListenOnly g s = s := by
  rw [alertListenOnly, onGroup_some hg]
  exact if_neg hr

theorem alertListenOnly_keeps (h g : GroupNo) {s : State} (k : RaiseWithdrawn g s.queue) :
    RaiseWithdrawn g (alertListenOnly h s).queue := by
  unfold alertListenOnly State.onGroup
  split
  · dsimp only
    split
    · exact withdrawRaise_keeps h g (s := s.updateAlert h fun a => a.toFollowing none a.level (s.now.addMs s.watchMs)) k
    · exact k
  · exact k

/-- What an event of the other groups keeps for group `g`. -/
structure State.AlertWaits (g : GroupNo) (t s : State) : Prop where
  group : t.group g = s.group g
  withdrawn : RaiseWithdrawn g s.queue → RaiseWithdrawn g t.queue
  agrees : t.AgreesButAisle s

namespace State.AlertWaits

variable {g : GroupNo}

theorem refl (s : State) : State.AlertWaits g s s := ⟨rfl, id, .refl s⟩

theorem trans {u t s : State} (h : State.AlertWaits g u t) (k : State.AlertWaits g t s) : State.AlertWaits g u s :=
  ⟨h.group.trans k.group, h.withdrawn ∘ k.withdrawn, h.agrees.trans k.agrees⟩

end State.AlertWaits

/-- A group that LISTEN-ONLY reaches (R165). -/
def FollowsNobody (g : GroupNo) (gr : Group) (watchEnds : Time) (t : State) : Prop :=
  (gr.alert.state ≠ .raised → t.group g = some gr)
    ∧ (gr.alert.state = .raised → RaiseWithdrawn g t.queue
      ∧ ∃ after, t.group g = some after ∧ after.record = gr.record ∧ after.alert.state = .following
        ∧ after.alert.raiser = none ∧ after.alert.level = gr.alert.level ∧ after.alert.raiseSent = false
        ∧ after.alert.watch = some watchEnds ∧ after.alert.deference = none ∧ after.alert.repeatTimer = none)

theorem FollowsNobody.of_group {g : GroupNo} {gr : Group} {w : Time} {s t : State} (h : FollowsNobody g gr w s)
    (hg : t.group g = s.group g) (hq : RaiseWithdrawn g s.queue → RaiseWithdrawn g t.queue) : FollowsNobody g gr w t :=
  ⟨fun k => hg.trans (h.1 k), fun k => ⟨hq (h.2 k).1, by rw [hg]; exact (h.2 k).2⟩⟩

theorem alertListenOnly_follows {g : GroupNo} {gr : Group} {s : State} (hg : s.group g = some gr) :
    FollowsNobody g gr (s.now.addMs s.watchMs) (alertListenOnly g s) := by
  refine ⟨fun hr => ?_, fun hr => ?_⟩
  · rw [alertListenOnly_other hg hr]
    exact hg
  · rw [alertListenOnly_raised hg hr]
    refine ⟨withdrawRaise_withdrawn g _, _, withdrawRaise_group.trans (updateAlert_group hg _), rfl, ?_⟩
    simp only [Alert.withOrigin_state, Alert.withOrigin_raiser, Alert.withOrigin_level, Alert.withOrigin_raiseSent,
      Alert.withOrigin_watch, Alert.withOrigin_deference, Alert.withOrigin_repeatTimer]
    exact ⟨rfl, rfl, rfl, rfl, rfl, rfl, rfl⟩

/-- Every group has its turn when the line becomes LISTEN-ONLY. -/
theorem enterListenOnly_follows {s : State} {g : GroupNo} {gr : Group} (hg : s.group g = some gr) :
    FollowsNobody g gr (s.now.addMs s.watchMs) (enterListenOnly s) := by
  let v : State := State.latch .listenOnlyEntered
    (s.updateLine fun lc => { lc with state := .listenOnly, secondTimer := some (s.now.addMs 1000) })
  obtain ⟨u, hu, hf⟩ := eachGroup_passes (R := State.AlertWaits g) .refl State.AlertWaits.trans (fun _ => ⟨rfl, id, rfl⟩)
    (f := alertListenOnly) (fun s h ne => ⟨alertListenOnly_only h s g (Ne.symm ne), alertListenOnly_keeps h g, alertListenOnly_agrees h s⟩) v
  have turn := alertListenOnly_follows (hu.group.trans hg)
  have watch : u.now.addMs u.watchMs = s.now.addMs s.watchMs := by
    unfold State.watchMs State.repeatMs
    rw [hu.agrees.now, hu.agrees.settings]
    rfl
  rw [watch] at turn
  exact turn.of_group hf.group hf.withdrawn

/-- What follows the line's entry into LISTEN-ONLY, elsewhere than in the line, the flags and the groups. -/
theorem EntersListenOnly.of {e : Nat} {s t u : State} (h : EntersListenOnly e s t) (state : u.line.state = t.line.state)
    (second : u.line.secondTimer = t.line.secondTimer) (flags : u.station.flags = t.station.flags)
    (notes : u.station.notes = t.station.notes) (groups : u.groups = t.groups)
    (withdrawn : ∀ g, RaiseWithdrawn g t.queue → RaiseWithdrawn g u.queue) : EntersListenOnly e s u := by
  obtain ⟨h1, h2, h3, h4, follows⟩ := h
  refine ⟨state.trans h1, second.trans h2, flags ▸ h3, notes ▸ h4, fun g gr hg => ?_⟩
  exact FollowsNobody.of_group (s := t) (follows g gr hg) (congrArg (Four.get · g) groups) (withdrawn g)

theorem EntersListenOnly.keepUp {e : Nat} {s t : State} (h : EntersListenOnly e s t) : EntersListenOnly e s (keepUp t) :=
  h.of rfl rfl rfl rfl rfl fun _ k => k.remarked (keepUp_remarked t)

/-- A check of the counts that finds one of them past its limit (R98). -/
theorem checkLineState_enters {e : Nat} {s v : State} (groups : v.groups = s.groups) (now : v.now = at' e s)
    (settings : v.settings = s.settings) (active : v.line.state = .active) (past : 128 ≤ v.line.tecCount ∨ 128 ≤ v.line.recCount) :
    EntersListenOnly e s (checkLineState v) := by
  have enters : checkLineState v = enterListenOnly v := by
    unfold checkLineState
    rw [active]
    exact if_pos past
  have overflows : v.line.overflows = true := by
    unfold LineController.overflows
    rw [active]
    simpa using past
  have flags : (checkLineState v).station.flags = v.lineChecked.station.flags := (checkLineState_agrees v).flags
  have notes : (checkLineState v).station.notes = v.lineChecked.station.notes := (checkLineState_agrees v).notes
  have checked : v.lineChecked = (v.updateLine (LineController.checked v.now)).latch .listenOnlyEntered := if_pos overflows
  have line : (checkLineState v).line = { v.line with state := .listenOnly, secondTimer := some (v.now.addMs 1000) } := by
    rw [checkLineState_line, LineController.checked, active]
    exact if_pos past
  refine ⟨by rw [line], by rw [line, now], by rw [flags, checked]; rfl, by rw [notes, checked]; rfl, fun g gr hg => ?_⟩
  have follows := enterListenOnly_follows (s := v) ((congrArg (Four.get · g) groups).trans hg)
  rw [← enters] at follows
  have watch : v.now.addMs v.watchMs = (at' e s).addMs (3 * (s.settings.repeatUnits * 10000)) := by
    unfold State.watchMs State.repeatMs
    rw [now, settings]
  rw [watch] at follows
  exact follows

/-! ## Line errors (R89, R97, R100) -/

/-- What a line error leaves, but for the receiver and the use of the line (R89). -/
def LineFailed (e : Nat) (code : LineError) (s t : State) : Prop :=
  t.line.lastError = code ∧ t.line.recCount = min (s.line.recCount + 1) 255
    ∧ t.station.counters.lineErrors = min (s.station.counters.lineErrors + 1) 65535
    ∧ t.station.notes.errorCode = true ∧ t.line.tecCount = s.line.tecCount
    ∧ (s.line.state = .active → 127 ≤ s.line.recCount → EntersListenOnly e s t)
    ∧ t.peers = s.peers ∧ t.shock = s.shock ∧ t.engine = s.engine

/-- The state in which a line error checks the counts. -/
def errorNoted (code : LineError) (s : State) : State :=
  (((waitIdle s).updateStation fun st => { st with notes := { st.notes with errorCode := true } }).updateLine fun lc =>
    { lc with lastError := code }).count .lineErrors 1 |>.updateLine fun lc => { lc with recCount := min (lc.recCount + 1) 255 }

theorem lineError_eq (code : LineError) (s : State) : lineError code s = checkLineState (errorNoted code s) := rfl

theorem checkLineState_counters (s : State) : apartFromQueue (checkLineState s).station.counters = apartFromQueue s.station.counters :=
  (checkLineState_agrees s).counters.trans (congrArg apartFromQueue s.lineChecked_counters)

theorem lineChecked_noteError (s : State) : s.lineChecked.station.notes.errorCode = s.station.notes.errorCode := by
  unfold State.lineChecked
  dsimp only
  split <;> rfl

/-- A line error of a frame in reception, which changes nothing before the error but what it hears. -/
theorem lineError_failed (e : Nat) (code : LineError) {lc : LineController} {s : State} (hstate : lc.state = s.line.state)
    (hrec : lc.recCount = s.line.recCount) (htec : lc.tecCount = s.line.tecCount) :
    LineFailed e code s (keepUp (lineError code (atFilter e lc s)))
      ∧ (keepUp (lineError code (atFilter e lc s))).line.receiver = lc.use.receiverAfter
      ∧ (keepUp (lineError code (atFilter e lc s))).line.use = lc.use := by
  let v := errorNoted code (atFilter e lc s)
  have agrees := checkLineState_agrees v
  have counters := checkLineState_counters v
  rw [lineError_eq]
  refine ⟨⟨?_, ?_, ?_, ?_, ?_, fun active past => ?_, ?_, ?_, ?_⟩, ?_, ?_⟩
  · rw [keepUp_line_lastError, checkLineState_line, LineController.checked_lastError]
    rfl
  · rw [keepUp_line_recCount, checkLineState_line, LineController.checked_recCount, ← hrec]
    rfl
  · exact congrArg Counters.lineErrors counters
  · rw [keepUp_station, agrees.notes]
    exact lineChecked_noteError v
  · rw [keepUp_line_tecCount, checkLineState_line, LineController.checked_tecCount, ← htec]
    rfl
  · have enters : EntersListenOnly e s (checkLineState v) := by
      refine checkLineState_enters rfl rfl rfl (hstate.trans active) (Or.inr ?_)
      change 128 ≤ min (lc.recCount + 1) 255
      omega
    exact enters.keepUp
  · exact agrees.peers.trans v.lineChecked_peers
  · exact agrees.shock.trans v.lineChecked_shock
  · exact agrees.engine.trans v.lineChecked_engine
  · rw [keepUp_line_receiver, checkLineState_line, LineController.checked_receiver]
    rfl
  · rw [keepUp_line_use, checkLineState_line, LineController.checked_use]
    rfl

/-- Settles O21: the four ways into a line error of a frame in reception differ in what the line heard before it. -/
theorem lineErrorHasThreeEffects : Obligations.LineErrorHasThreeEffects := by
  intro e received stopEnd s awake receiving failed
  refine ⟨?_, fun chars gap hbegin h160 h168 hgap => ?_, fun sender kind length hlong => ?_, fun chars code judged => ?_⟩
  · obtain ⟨h, hwait, -⟩ := lineError_failed e .framing (s := s)
      (lc := { s.line with use := .busyOther, level := .high, lowEnd := at' e s }) rfl rfl rfl
    refine ⟨_, exec_timed rfl awake ?_, h, hwait⟩
    unfold framingFaultSeen
    rw [passTime_line, receiving]
    rfl
  · intro lowEnd
    let lc := s.line.afterGap lowEnd (at' e s)
    obtain ⟨h, hwait, huse⟩ := lineError_failed e .length (s := s) (lc := lc) rfl rfl rfl
    have ok : gapOk chars gap = true := by
      unfold gapOk
      simp [hbegin, h160, h168]
    refine ⟨_, exec_timed_checked rfl ok awake ?_, h, fun hn => ?_, fun hc => ?_⟩
    · unfold gapPasses
      rw [passTime_line, receiving]
      exact if_pos hgap
    · have use : lc.use = .busyOther := if_neg hn
      rw [hwait, huse, use]
      exact ⟨rfl, rfl⟩
    · have use : lc.use = .idle (lowEnd.addUs 192) := if_pos hc
      rw [hwait, huse, use]
      exact ⟨rfl, rfl⟩
  · obtain ⟨h, hwait, -⟩ := lineError_failed e .length (s := s)
      (lc := { s.line with use := .busyOther, level := .high, lowEnd := (at' e s).subUs (halfBitUs + highTail length * bitUs) }) rfl rfl rfl
    refine ⟨_, exec_timed_checked rfl (decide_eq_true hlong) awake ?_, h, hwait⟩
    unfold lengthTooLong
    rw [passTime_line, receiving]
    rfl
  · obtain ⟨h, hwait, -⟩ := lineError_failed e code (s := s)
      (lc := { s.line with
        use := .busyOther, level := .high, lowEnd := (at' e s).subUs (bitUs + highTail (chars.getLast?.getD mark) * bitUs) }) rfl rfl rfl
    have ok : rejectedOk chars = true := by
      unfold rejectedOk
      rw [judged]
    refine ⟨_, exec_timed_checked rfl ok awake ?_, h, hwait⟩
    unfold frameReceived
    rw [passTime_line, receiving, judged]
    rfl

/-! ## The busy line (R82, R92, R99) -/

theorem any_waiting_remarked {p q : List Entry} (h : Remarked p q) : p.any Entry.waiting = q.any Entry.waiting :=
  h.any _ fun _ _ k => k.waiting

/-- What follows at once on a line that is busy otherwise (R92, R99). -/
theorem keepUp_busy {s : State} (h : s.line.use = .busyOther) :
    (keepUp s).queue = markBusySeen s.now s.queue
      ∧ (s.queue.any Entry.waiting = true → s.inBrownOut = false → (keepUp s).line.stuckSince = some (s.line.stuckSince.getD s.now))
      ∧ (s.queue.any Entry.waiting = false ∨ s.inBrownOut = true → (keepUp s).line.stuckSince = none) := by
  have conditions : s.stuckConditions = (s.queue.any Entry.waiting && !s.inBrownOut) := by
    unfold State.stuckConditions
    rw [h, Bool.true_and]
  unfold keepUp
  dsimp only
  rw [conditions]
  refine ⟨if_pos h, fun hw hb => ?_, fun hn => ?_⟩
  · rw [hw, hb]
    cases s.line.stuckSince <;> rfl
  · rcases hn with hn | hn <;> rw [hn]
    · rfl
    · rw [Bool.not_true, Bool.and_false]
      rfl

/-- Settles O20: without an own attempt a LOW bit time makes the line busy otherwise. -/
theorem busyLineMarksTheQueue : Obligations.BusyLineMarksTheQueue := by
  intro e s awake noAttempt
  let v := heardLow .low ((at' e s).addUs bitUs) (passTime e s)
  have is : lowBegins (passTime e s) = v := by
    unfold lowBegins foreignLow
    rw [passTime_line, noAttempt]
    rfl
  have any : v.queue.any Entry.waiting = s.queue.any Entry.waiting := any_waiting_remarked (passTime_remarked e s)
  obtain ⟨queue, running, stopped⟩ := keepUp_busy (s := v) rfl
  refine ⟨_, exec_timed rfl awake is, (keepUp_unmarked v).trans (passTime_unmarked e s), fun x hx hb => ?_,
    fun hw hb => running (any.trans hw) hb, fun hn => stopped (hn.imp any.trans id)⟩
  rw [queue] at hx
  obtain ⟨y, -, rfl⟩ := List.mem_map.mp hx
  split
  · rfl
  · next hy =>
    rw [if_neg hy] at hb
    exact absurd hb hy

/-! ## The timers of the line (R98, R99) -/

theorem keepUp_stuckConditions (s : State) : (keepUp s).stuckConditions = s.stuckConditions := by
  have any := any_waiting_remarked (keepUp_remarked s)
  unfold State.stuckConditions
  rw [any]
  rfl

theorem keepUp_stuckSince_of_some {s : State} {t : Time} (h : s.line.stuckSince = some t) :
    (keepUp s).line.stuckSince = some t ∨ (keepUp s).stuckConditions = false := by
  rw [keepUp_stuckConditions]
  cases hc : s.stuckConditions with
  | false => exact Or.inr rfl
  | true =>
    refine Or.inl ?_
    unfold keepUp
    dsimp only
    rw [hc, h]
    rfl

/-- The counts of the line as a check finds them within their limits leave the groups alone. -/
theorem checkLineState_groups {s : State} (h : s.line.overflows = false) : (checkLineState s).groups = s.groups := by
  rw [checkLineState_calm h]
  rfl

theorem overflows_false {lc : LineController} (h : lc.state = .listenOnly ∨ lc.tecCount < 128 ∧ lc.recCount < 128) :
    lc.overflows = false := by
  unfold LineController.overflows
  rcases h with h | ⟨h1, h2⟩
  · simp [h]
  · simp
    omega

/-- Settles O38: each timer moves TEC once, and the check of the counts follows. -/
theorem lineTimersMoveTec : Obligations.LineTimersMoveTec := by
  intro e s awake sound
  obtain ⟨htec, hrec, hlimits, hsecond⟩ := id sound
  refine ⟨fun since hsince hdue => ?_, fun expiry hexpiry hdue => ?_⟩
  · let v : State := (State.latch .lineStuck ((passTime e s).updateLine fun lc =>
      { lc with stuckSince := some (since.addMs 50) })).updateLine fun lc => { lc with tecCount := min (lc.tecCount + 8) 255 }
    have runs : exec (.stuckMeasurementExpiry e) s = .next (keepUp (checkLineState v)) := by
      refine exec_timed rfl awake ?_
      rw [passTime_line, hsince]
      exact if_pos hdue
    have agrees := checkLineState_agrees v
    have line := checkLineState_line v
    have vline : v.line = { s.line with stuckSince := some (since.addMs 50), tecCount := min (s.line.tecCount + 8) 255 } := rfl
    have latched : v.lineChecked.station.flags.lineStuck = true ∧ v.lineChecked.station.notes.flags.lineStuck = true := by
      unfold State.lineChecked
      dsimp only
      split <;> exact ⟨rfl, rfl⟩
    have enters (active : s.line.state = .active) (past : 120 ≤ s.line.tecCount) : EntersListenOnly e s (keepUp (checkLineState v)) := by
      have enters : EntersListenOnly e s (checkLineState v) :=
        checkLineState_enters rfl rfl rfl active (Or.inl (by change 128 ≤ min (s.line.tecCount + 8) 255; omega))
      exact enters.keepUp
    refine ⟨_, runs, ?_, ?_, ?_, ?_, keepUp_stuckSince_of_some ?_, fun past => ?_, enters, fun h => ?_, agrees.peers.trans v.lineChecked_peers,
      agrees.engine.trans v.lineChecked_engine⟩
    · rw [keepUp_line_tecCount, line, LineController.checked_tecCount, vline]
    · rw [keepUp_line_recCount, line, LineController.checked_recCount, vline]
    · rw [keepUp_station, agrees.flags]
      exact latched.1
    · rw [keepUp_station, agrees.notes]
      exact latched.2
    · rw [line, LineController.checked_stuckSince, vline]
    · cases hs : s.line.state with
      | active => exact (enters hs past).1
      | listenOnly =>
        rw [keepUp_line_state, line, LineController.checked, vline]
        dsimp only
        rw [hs]
        dsimp only
        rw [if_neg (by omega)]
    · rw [keepUp_groups]
      refine checkLineState_groups (overflows_false ?_)
      cases hs : s.line.state with
      | listenOnly => exact Or.inl hs
      | active =>
        refine Or.inr ⟨?_, (hlimits hs).2⟩
        change min (s.line.tecCount + 8) 255 < 128
        have := h.resolve_left (by rw [hs]; exact LineState.noConfusion)
        omega
  · have listen : s.line.state = .listenOnly := hsecond.mp (by rw [hexpiry]; rfl)
    let u : State := (passTime e s).updateLine fun lc => { lc with secondTimer := some (expiry.addMs 1000) }
    have usound : LineCountsSound u := ⟨htec, hrec, hlimits, iff_of_true rfl listen⟩
    have is : lowerTec u = u.updateLine fun lc => LineController.checked u.now { lc with tecCount := lc.tecCount - 1 } := lowerTec_eq usound
    have runs : exec (.listenOnlySecondTimer e) s = .next (keepUp (lowerTec u)) := by
      refine exec_timed rfl awake ?_
      rw [passTime_line, hexpiry]
      exact if_pos hdue
    rw [is] at runs
    let lc : LineController := { u.line with tecCount := u.line.tecCount - 1 }
    have state : lc.checked u.now
        = if s.line.tecCount - 1 ≤ 95 ∧ s.line.recCount ≤ 95 then { lc with state := .active, secondTimer := none } else lc := by
      rw [LineController.checked, show lc.state = .listenOnly from listen]
      rfl
    refine ⟨_, runs, ?_, ?_, fun h => ?_, fun h => ?_, rfl, rfl, rfl⟩
    · rw [keepUp_line_tecCount, State.updateLine_line, LineController.checked_tecCount]
      rfl
    · rw [keepUp_line_recCount, State.updateLine_line, LineController.checked_recCount]
      rfl
    · have active := state.trans (if_pos (by omega))
      exact ⟨congrArg LineController.state active, congrArg LineController.secondTimer active⟩
    · have still := state.trans (if_neg (by omega))
      exact ⟨(congrArg LineController.state still).trans listen, congrArg LineController.secondTimer still⟩

end Sys2Proof.Machine
end


section
/-! PROOF. The entries on their way to and from the line: the best eligible entry, the return of the ON LINE entry, backoff and expiry. -/

namespace Sys2Proof.Machine

/-! ## Entries that stay (R107) -/

/-- An entry that stays an entry of its identity; an offer of its own may have renewed its body. -/
def Entry.StaysAs (y x : Entry) : Prop :=
  y.body.identity = x.body.identity ∧ y.enqueued = x.enqueued ∧ y.attempts = x.attempts ∧ y.notBefore = x.notBefore
    ∧ y.status = x.status

/-- Every entry of `q` stays in `p`. -/
def EntriesStay (p q : List Entry) : Prop := ∀ x ∈ q, ∃ y ∈ p, y.StaysAs x

theorem Entry.StaysAs.trans {x y z : Entry} (h : z.StaysAs y) (k : y.StaysAs x) : z.StaysAs x :=
  ⟨h.1.trans k.1, h.2.1.trans k.2.1, h.2.2.1.trans k.2.2.1, h.2.2.2.1.trans k.2.2.2.1, h.2.2.2.2.trans k.2.2.2.2⟩

theorem Entry.SameBut.staysAs {x y : Entry} (h : y.SameBut x) : y.StaysAs x :=
  ⟨by rw [h.body], h.enqueued, h.attempts, h.notBefore, h.status⟩

theorem EntriesStay.of_subset {p q : List Entry} (h : ∀ x ∈ q, x ∈ p) : EntriesStay p q :=
  fun x hx => ⟨x, h x hx, rfl, rfl, rfl, rfl, rfl⟩

theorem EntriesStay.refl (q : List Entry) : EntriesStay q q := .of_subset fun _ h => h

theorem EntriesStay.trans {p q r : List Entry} (h : EntriesStay p q) (k : EntriesStay q r) : EntriesStay p r := fun x hx => by
  obtain ⟨y, hy, same⟩ := k x hx
  obtain ⟨z, hz, same'⟩ := h y hy
  exact ⟨z, hz, same'.trans same⟩

theorem offerOrRefuse_stay (l : LaneNo) (s : State) : EntriesStay (offerOrRefuse (s.stockBody l) s).2.queue s.queue := by
  unfold offerOrRefuse
  split
  · intro x hx
    refine ⟨_, List.mem_map_of_mem hx, ?_⟩
    split
    · next hw => exact ⟨((waitsFor_iff x _).mp hw).2.symm, rfl, rfl, rfl, rfl⟩
    · exact ⟨rfl, rfl, rfl, rfl, rfl⟩
  · split
    · exact .of_subset fun x hx => List.mem_append_left _ hx
    · exact .refl _

theorem laneOffer_stay (l : LaneNo) (s : State) : EntriesStay (laneOffer l s).queue s.queue := by
  have h := offerOrRefuse_stay l s
  unfold laneOffer
  split
  · split <;> next heq => rw [heq] at h; exact h
  · exact .refl _

/-- An announcement of room drops no entry (R112, R113). -/
theorem announceRoom_stay (s : State) : EntriesStay (announceRoom s).queue s.queue :=
  foldl_relates (fun t s : State => EntriesStay t.queue s.queue) (fun _ => .refl _) (fun h k => h.trans k) _ (fun s l => laneOffer_stay l s) _
    s.spend

theorem coalesce_waiting (x : Entry) (b : Body) (now : Time) : (x.coalesce b now).waiting = x.waiting := by
  cases b <;> rfl

/-- An offer of a report brings nothing ON LINE. -/
theorem offerOrRefuse_onLine (b : Body) (s : State) (h : ∀ x ∈ s.queue, x.waiting = true) :
    ∀ x ∈ (offerOrRefuse b s).2.queue, x.waiting = true := by
  unfold offerOrRefuse
  split
  · intro x hx
    obtain ⟨y, hy, rfl⟩ := List.mem_map.mp hx
    split
    · rw [coalesce_waiting]
      exact h y hy
    · exact h y hy
  · split
    · intro x hx
      rcases List.mem_append.mp hx with hx | hx
      · exact h x hx
      · rw [List.mem_singleton.mp hx]
        rfl
    · exact h

/-- No entry is ON LINE. -/
def NoneOnLine (q : List Entry) : Prop := ∀ x ∈ q, x.waiting = true

theorem NoneOnLine.onLineEntry {q : List Entry} (h : NoneOnLine q) : onLineEntry q = none :=
  List.find?_eq_none.mpr fun x hx => by rw [h x hx]; exact Bool.false_ne_true

theorem dropOnLine_noneOnLine (q : List Entry) : NoneOnLine (dropOnLine q) := fun _ hx => (List.mem_filter.mp hx).2

theorem NoneOnLine.remarked {p q : List Entry} (h : NoneOnLine q) (k : Remarked p q) : NoneOnLine p := fun _ hy =>
  let ⟨x, hx, same⟩ := k.mem_inv hy
  same.waiting.trans (h x hx)

theorem laneOffer_noneOnLine (l : LaneNo) {s : State} (h : NoneOnLine s.queue) : NoneOnLine (laneOffer l s).queue := by
  have k := offerOrRefuse_onLine (s.stockBody l) s h
  unfold laneOffer
  split
  · split <;> next heq => rw [heq] at k; exact k
  · exact h

theorem announceRoom_noneOnLine {s : State} (h : NoneOnLine s.queue) : NoneOnLine (announceRoom s).queue :=
  foldl_relates (fun t s : State => NoneOnLine s.queue → NoneOnLine t.queue) (fun _ h => h) (fun h k => h ∘ k) _
    (fun _ l => laneOffer_noneOnLine l) _ s.spend h

/-! ## The times of the queue (R106, R111) -/

theorem expired_iff (now : Time) (x : Entry) : x.expired now = true ↔ Outlived now x := by
  unfold Entry.expired Outlived
  constructor
  · intro h
    split at h
    · next zone hold hb => exact ⟨zone, hold, hb, h⟩
    all_goals cases h
  · rintro ⟨zone, hold, hb, h⟩
    rw [hb]
    exact h

theorem Outlived.of_sameBut {now : Time} {x y : Entry} (k : y.SameBut x) : Outlived now y ↔ Outlived now x := by
  unfold Outlived
  rw [k.body, k.enqueued]

theorem Outlived.identity {now : Time} {x : Entry} (h : Outlived now x) : x.body.identity = .disturb := by
  obtain ⟨zone, hold, hb, -⟩ := h
  rw [hb]
  rfl

/-- What the removal of expired DISTURBs leaves (R111). -/
theorem removeExpired_queue (s : State) : (∀ x ∈ (removeExpired s).queue, x.waiting = true → ¬ Outlived s.now x)
    ∧ EntriesStay (removeExpired s).queue (s.queue.filter fun x => !(x.waiting && x.expired s.now)) := by
  unfold removeExpired
  dsimp only
  split
  · refine ⟨fun x hx hw ho => ?_, announceRoom_stay _⟩
    have notStock (l : LaneNo) : x.body.identity ≠ .stock l := by
      rw [ho.identity]
      exact fun k => (nomatch k)
    have hx := (List.mem_filter.mp ((announceRoom_sameButStock _ x notStock).mp hx)).2
    rw [hw, (expired_iff s.now x).mpr ho] at hx
    cases hx
  · next hn =>
    refine ⟨fun x hx hw ho => hn (List.any_eq_true.mpr ⟨x, hx, ?_⟩), .of_subset fun x hx => (List.mem_filter.mp hx).1⟩
    rw [hw, (expired_iff s.now x).mpr ho]
    rfl

/-- Settles O37. -/
theorem queueTimesPass : Obligations.QueueTimesPass := by
  intro e s awake
  have marks := passTime_remarked e s
  refine ⟨⟨_, exec_timed rfl awake rfl, ?_, rfl, rfl, rfl⟩, ⟨_, exec_timed rfl awake rfl, fun y hy hw ho => ?_, fun x hx hk => ?_, ?_, ?_⟩⟩
  · have commutes (q : List Entry) : unmarked (q.map fun x =>
        if x.waiting && x.notBefore.notAfter (at' e s) then { x with passed := true } else x)
        = (unmarked q).map fun x => if x.waiting = true ∧ x.notBefore.notAfter (at' e s) = true then { x with passed := true } else x := by
      unfold unmarked
      rw [List.map_map, List.map_map]
      refine List.map_congr_left fun x _ => ?_
      simp only [Function.comp_apply, Bool.and_eq_true]
      by_cases h : x.waiting = true ∧ x.notBefore.notAfter (at' e s) = true
      · rw [if_pos h]
        exact (if_pos h).symm
      · rw [if_neg h]
        exact (if_neg h).symm
    exact (keepUp_unmarked _).trans ((commutes (passTime e s).queue).trans (by rw [passTime_unmarked]))
  · obtain ⟨x, hx, same⟩ := (keepUp_remarked _).mem_inv hy
    exact (removeExpired_queue (passTime e s)).1 x hx (same.waiting ▸ hw) ((Outlived.of_sameBut same).mp ho)
  · obtain ⟨y, hy, same⟩ := marks.mem hx
    have kept : y ∈ (passTime e s).queue.filter fun x => !(x.waiting && x.expired (passTime e s).now) := by
      refine List.mem_filter.mpr ⟨hy, ?_⟩
      rw [Bool.not_eq_true', Bool.and_eq_false_iff]
      refine hk.imp same.waiting.trans fun k => Bool.eq_false_iff.mpr fun h => k ?_
      exact (Outlived.of_sameBut same).mp ((expired_iff _ y).mp h)
    obtain ⟨z, hz, stays⟩ := (removeExpired_queue (passTime e s)).2 y kept
    obtain ⟨w, hw, marked⟩ := (keepUp_remarked _).mem hz
    obtain ⟨hid, henq, -, -, hstatus⟩ := marked.staysAs.trans (stays.trans same.staysAs)
    exact ⟨w, hw, henq, hid, hstatus⟩
  · exact (removeExpired_agrees _).groups
  · exact (removeExpired_agrees _).aisle.peers

/-! ## The ON LINE entry comes back (R110) -/

theorem mayWait_iff {now : Time} {x : Entry} {q : List Entry} :
    MayWait now x q ↔ (x.withdraw || (q.any fun o => o.waitsFor x.body.identity) || x.expired now) = false := by
  unfold MayWait
  rw [Bool.or_eq_false_iff, Bool.or_eq_false_iff, and_assoc, ← expired_iff, Bool.not_eq_true]

theorem MayWait.of_remarked {now : Time} {x y : Entry} {p q : List Entry} (h : Remarked p q) (k : y.SameBut x) :
    MayWait now y p ↔ MayWait now x q := by
  unfold MayWait
  rw [k.withdraw, k.body, h.waitsFor, Outlived.of_sameBut k]

theorem returnEntry_waits {f : Entry → Entry} {s : State} {x : Entry} (hx : onLineEntry s.queue = some x) (h : MayWait s.now x s.queue) :
    returnEntry f s = { s with queue := updateOnLine (fun o => { f o with status := .waiting }) s.queue } := by
  unfold returnEntry
  rw [hx]
  exact if_neg (by rw [mayWait_iff.mp h]; exact Bool.false_ne_true)

theorem returnEntry_leaves {f : Entry → Entry} {s : State} {x : Entry} (hx : onLineEntry s.queue = some x) (h : ¬ MayWait s.now x s.queue) :
    returnEntry f s = announceRoom { s with queue := dropOnLine s.queue } := by
  unfold returnEntry
  rw [hx]
  refine if_pos ?_
  rw [mayWait_iff, Bool.not_eq_false] at h
  exact h

/-- A change of the ON LINE entry, with the marks left out. -/
theorem unmarked_updateOnLine {F : Entry → Entry} (hF : ∀ x b, ({ F { x with busySeen := b } with busySeen := false } : Entry)
    = { F x with busySeen := false }) {p q : List Entry} (h : Remarked p q) : unmarked (updateOnLine F p) = unmarked (updateOnLine F q) := by
  obtain ⟨g, hg, rfl⟩ := h
  unfold unmarked updateOnLine
  rw [List.map_map, List.map_map, List.map_map]
  refine List.map_congr_left fun x _ => ?_
  obtain ⟨b, hb⟩ := hg x
  simp only [Function.comp_apply]
  rw [hb]
  change ({ (if x.waiting = true then { x with busySeen := b } else F { x with busySeen := b }) with busySeen := false } : Entry) = _
  split
  · rfl
  · exact hF x b

theorem Remarked.dropOnLine_stay {p q : List Entry} (h : Remarked p q) {y : Entry} (hy : y ∈ q) (hw : y.waiting = true) :
    ∃ z ∈ dropOnLine p, z.StaysAs y := by
  obtain ⟨z, hz, same⟩ := h.mem hy
  exact ⟨z, List.mem_filter.mpr ⟨hz, same.waiting.trans hw⟩, same.staysAs⟩

/-- A WAITING entry that stays waits. -/
theorem Entry.StaysAs.waits {x y : Entry} (h : y.StaysAs x) (hw : x.waiting = true) : y.waiting = true := by
  unfold Entry.waiting at hw ⊢
  rw [h.2.2.2.2]
  exact hw

/-- What the return of the ON LINE entry leaves (R110, R111), from a queue that time has marked. -/
theorem returnEntry_comesBack {e : Nat} {f : Entry → Entry} {s v : State} {x : Entry} (hx : onLineEntry s.queue = some x)
    (marks : Remarked v.queue s.queue) (now : v.now = at' e s) (hf : ∀ x b, f { x with busySeen := b } = { f x with busySeen := b }) :
    ComesBack e x f s (keepUp (returnEntry f v)) := by
  obtain ⟨y, hy, same⟩ := marks.onLineEntry.2 x hx
  have may : MayWait v.now y v.queue ↔ MayWait (at' e s) x s.queue := by rw [now, MayWait.of_remarked marks same]
  refine ⟨fun h => ?_, fun h => ?_⟩
  · rw [keepUp_unmarked, returnEntry_waits hy (may.mpr h)]
    exact unmarked_updateOnLine (fun x b => by rw [hf]) marks
  · rw [returnEntry_leaves hy fun k => h (may.mp k)]
    refine ⟨((announceRoom_noneOnLine (dropOnLine_noneOnLine v.queue)).remarked (keepUp_remarked _)).onLineEntry, fun z hz hw => ?_⟩
    obtain ⟨a, ha, sa⟩ := marks.dropOnLine_stay hz hw
    obtain ⟨b, hb, sb⟩ := announceRoom_stay { v with queue := dropOnLine v.queue } a ha
    obtain ⟨c, hc, sc⟩ := (keepUp_remarked (announceRoom { v with queue := dropOnLine v.queue })).mem hb
    have stays := sc.staysAs.trans (sb.trans sa)
    obtain ⟨hid, henq, hatt, hnot, -⟩ := id stays
    exact ⟨c, hc, stays.waits hw, hid, henq, hatt, hnot⟩

/-! ## A collision (R94, R95) -/

/-- The entry after its `n`th collision. -/
def Entry.backedOff (n : Nat) (notBefore now : Time) (x : Entry) : Entry :=
  { x with attempts := n, notBefore := notBefore, passed := notBefore.notAfter now }

/-- A jam that ends after one of the first seven collisions (R95). -/
theorem jamEnds_backsOff {ended : Time} {s : State} {x : Entry} (hx : onLineEntry s.queue = some x) (h7 : x.attempts < 7) :
    ∃ r < 2 ^ min (x.attempts + 1) 6, jamEnds ended s
      = returnEntry (Entry.backedOff (x.attempts + 1) (ended.addUs (r * 512)) s.now) (endAttempt ended s).spend := by
  refine ⟨((endAttempt ended s).draw (2 ^ min (x.attempts + 1) 6)).1, draw_lt (Nat.two_pow_pos _) _, ?_⟩
  unfold jamEnds
  rw [hx]
  exact if_pos (by omega)

theorem Entry.backedOff_marks (n : Nat) (t now : Time) (x : Entry) (b : Bool) :
    Entry.backedOff n t now { x with busySeen := b } = { Entry.backedOff n t now x with busySeen := b } := rfl

theorem exec_jamEnd {e : Nat} {frame : List Byte} {began ends : Time} {s : State} (awake : Awake s)
    (ha : s.line.attempt = some ⟨.jamming, frame, began, ends⟩) (hd : ends.notAfter (at' e s) = true) :
    exec (.jamEnd e) s = .next (keepUp (jamEnds ends (passTime e s))) := by
  refine exec_timed rfl awake ?_
  rw [passTime_line, ha]
  exact if_pos hd

/-- Settles O35, by whether the entry may wait again. -/
theorem collisionJamsAndBacksOff : Obligations.CollisionJamsAndBacksOff := by
  intro e frame began ends s awake
  have marks := passTime_remarked e s
  refine ⟨fun ha hd => ?_, fun x ha hd hx h7 may => ?_, fun x ha hd hx h7 may => ?_⟩
  · refine exec_timed rfl awake ?_
    rw [passTime_line, ha]
    exact if_pos hd
  · obtain ⟨y, hy, same⟩ := marks.onLineEntry.2 x hx
    obtain ⟨r, hr, jam⟩ := jamEnds_backsOff (ended := ends) hy (same.attempts ▸ h7)
    rw [same.attempts] at hr jam
    let v := (endAttempt ends (passTime e s)).spend
    have back := (returnEntry_comesBack (e := e) (v := v) hx marks rfl
      (Entry.backedOff_marks (x.attempts + 1) (ends.addUs (r * 512)) (at' e s))).1 may
    have here : MayWait v.now y v.queue := (MayWait.of_remarked marks same).mpr may
    have is : jamEnds ends (passTime e s) = _ := jam.trans (returnEntry_waits (s := v) hy here)
    refine ⟨_, r, exec_jamEnd awake ha hd, hr, by rw [jam]; exact back, ?_⟩
    rw [is]
    exact ⟨rfl, rfl, rfl, rfl, rfl, rfl, rfl⟩
  · obtain ⟨y, hy, same⟩ := marks.onLineEntry.2 x hx
    obtain ⟨r, hr, jam⟩ := jamEnds_backsOff (ended := ends) hy (same.attempts ▸ h7)
    rw [same.attempts] at hr jam
    let v := (endAttempt ends (passTime e s)).spend
    have back := (returnEntry_comesBack (e := e) (v := v) hx marks rfl
      (Entry.backedOff_marks (x.attempts + 1) (ends.addUs (r * 512)) (at' e s))).2 may
    have agrees := returnEntry_agrees (Entry.backedOff (x.attempts + 1) (ends.addUs (r * 512)) (at' e s)) v
    refine ⟨_, exec_jamEnd awake ha hd, ?_⟩
    rw [jam]
    refine ⟨back.1, back.2, ?_, ?_, ?_, agrees.aisle.counters, agrees.aisle.flags, agrees.aisle.peers, agrees.groups⟩
    · exact congrArg LineController.attempt agrees.aisle.line
    · exact congrArg LineController.receiver agrees.aisle.line
    · exact (congrArg LineController.tecCount agrees.aisle.line).trans rfl

/-! ## The best eligible entry (R91, R93, R106) -/

theorem find_first {α : Type} {test : α → Bool} {before after : List α} {x : α} (hb : ∀ y ∈ before, test y = false) (hx : test x = true) :
    (before ++ x :: after).find? test = some x :=
  List.find?_eq_some_iff_append.mpr ⟨hx, before, after, rfl, fun y hy => by rw [hb y hy]; rfl⟩

theorem eligible_iff (x : Entry) : x.eligible = true ↔ x.waiting = true ∧ x.passed = true := by
  unfold Entry.eligible
  rw [Bool.and_eq_true]

section
variable {x : Entry} {earlier later : List Entry} (hw : x.waiting = true) (hp : x.passed = true)
  (he : ∀ y ∈ earlier, y.waiting = true → y.passed = true → x.body.priority < y.body.priority)
include hw hp he

theorem bestEligible_eq (hl : ∀ y ∈ later, y.waiting = true → y.passed = true → x.body.priority ≤ y.body.priority) :
    bestEligible (earlier ++ x :: later) = some x := by
  have here : (earlier ++ x :: later).find? (fun y => y.eligible && decide (y.body.priority = x.body.priority)) = some x := by
    refine find_first (fun y hy => ?_) (by rw [(eligible_iff x).mpr ⟨hw, hp⟩]; simp)
    rw [Bool.and_eq_false_iff]
    refine or_iff_not_imp_left.mpr fun h => decide_eq_false ?_
    obtain ⟨hyw, hyp⟩ := (eligible_iff y).mp (by simpa using h)
    exact Nat.ne_of_gt (he y hy hyw hyp)
  have better (k : Nat) (hk : k < x.body.priority) :
      (earlier ++ x :: later).find? (fun y => y.eligible && decide (y.body.priority = k)) = none := by
    refine List.find?_eq_none.mpr fun y hy h => ?_
    rw [Bool.and_eq_true, decide_eq_true_iff, eligible_iff] at h
    obtain ⟨⟨hyw, hyp⟩, hc⟩ := h
    rcases List.mem_append.mp hy with hy | hy
    · have := he y hy hyw hyp
      omega
    · rcases List.mem_cons.mp hy with rfl | hy
      · omega
      · have := hl y hy hyw hyp
        omega
  have h3 := priority_le x.body
  unfold bestEligible
  rw [List.findSome?_cons]
  rcases Nat.eq_zero_or_pos x.body.priority with h | h
  · rw [← h, here]
  rw [better 0 h]
  dsimp only
  rw [List.findSome?_cons]
  rcases Nat.eq_or_lt_of_le h with h | h
  · rw [show 1 = x.body.priority from h, here]
  rw [better 1 h]
  dsimp only
  rw [List.findSome?_cons]
  rcases Nat.eq_or_lt_of_le h with h | h
  · rw [show 2 = x.body.priority from h, here]
  rw [better 2 h]
  dsimp only
  rw [List.findSome?_cons, show 3 = x.body.priority by omega, here]

theorem putOnLine_eq (hl : ∀ y ∈ later, y.waiting = true → y.passed = true → x.body.priority ≤ y.body.priority) :
    putOnLine (earlier ++ x :: later) = earlier ++ { x with status := .onLine, tried := true } :: later := by
  have first {before : List Entry} (hb : ∀ y ∈ before, y.waiting = true → y.passed = true → x.body.priority < y.body.priority) :
      updateFirst (fun y => y.eligible && decide (y.body.priority = x.body.priority))
        (fun y => { y with status := .onLine, tried := true }) (before ++ x :: later)
      = before ++ { x with status := .onLine, tried := true } :: later := by
    induction before with
    | nil => exact if_pos (by simp [(eligible_iff x).mpr ⟨hw, hp⟩])
    | cons y before ih =>
      rw [List.cons_append]
      unfold updateFirst
      rw [if_neg, ih fun z hz => hb z (List.mem_cons_of_mem y hz)]
      · rfl
      · intro h
        rw [Bool.and_eq_true, decide_eq_true_iff, eligible_iff] at h
        have := hb y List.mem_cons_self h.1.1 h.1.2
        omega
  unfold putOnLine
  rw [bestEligible_eq hw hp he hl]
  exact first he

end

/-! ## The beginning of an attempt (R91 to R93) -/

theorem gapEnd_eq (priority : Nat) (since : Time) : gapEnd priority since = since.addUs (64 * priority) := by
  unfold gapEnd bitUs
  congr 1
  omega

theorem awaitsGap_true {x : Entry} {s : State} (hs : s.line.state = .active) (hb : s.inBrownOut = false) (ha : s.line.attempt = none)
    (hv : validNumber s.station.number = true) (hc : s.station.phase ≠ .configFault ∨ x.body = .status) : awaitsGap x s = true := by
  unfold awaitsGap
  simp [hs, hb, ha, hv, hc]

theorem attemptMoments_eq {x : Entry} {since : Time} {s : State} (awake : Awake s) (hx : bestEligible s.queue = some x)
    (hu : s.line.use = .idle since) (hg : awaitsGap x s = true) :
    s.attemptMoments = [State.attemptMoments.later s.now (gapEnd x.body.priority since)] := by
  unfold State.attemptMoments
  rw [hx, hu]
  exact if_pos (by rw [hg, decide_eq_true (show s.station.phase ≠ .reset from awake)]; rfl)

theorem countDeferral_counts (x : Entry) (s : State) : (countDeferral x s).station.counters.deferrals
    = (if x.tried = false ∧ x.busySeen = true then min (s.station.counters.deferrals + 1) 65535 else s.station.counters.deferrals) := by
  have test : (!x.tried && x.busySeen) = true ↔ x.tried = false ∧ x.busySeen = true := by
    rw [Bool.and_eq_true, Bool.not_eq_true']
  unfold countDeferral
  by_cases h : x.tried = false ∧ x.busySeen = true
  · rw [if_pos h, if_pos (test.mpr h)]
    rfl
  · rw [if_neg h, if_neg fun k => h (test.mp k)]

/-- What the beginning of an attempt leaves (R93, R180), in the state in which the frame is formed. -/
theorem startSending_begun (x : Entry) (s : State) :
    (startSending x s).queue = putOnLine s.queue
      ∧ (startSending x s).line = { s.line with
          attempt := some ⟨.sending, s.frameOf x.body, s.now, s.now.addUs (80 * (s.frameOf x.body).length)⟩
          receiver := .readback, use := .busyOwn }
      ∧ (x.body = .status → (startSending x s).station.notes = CauseNotes.clear ∧ (startSending x s).station.capture
        = some ⟨s.station.counters, s.station.flags, s.lanes.map fun lane => lane.counter.drift, s.line.lastError⟩)
      ∧ (startSending x s).lanes = s.lanes ∧ (startSending x s).peers = s.peers ∧ (startSending x s).groups = s.groups
      ∧ (startSending x s).shock = s.shock ∧ (startSending x s).engine = s.engine := by
  have us : frameUs (s.frameOf x.body) = 80 * (s.frameOf x.body).length := Nat.mul_comm _ _
  unfold startSending
  dsimp only
  rw [us]
  by_cases h : x.body = .status
  · rw [if_pos h]
    exact ⟨rfl, rfl, fun _ => ⟨rfl, rfl⟩, rfl, rfl, rfl, rfl, rfl⟩
  · rw [if_neg h]
    exact ⟨rfl, rfl, fun k => absurd k h, rfl, rfl, rfl, rfl, rfl⟩

theorem frameOf_body {b : Body} (s : State) (h : b ≠ .status) : s.frameOf b = frameChars s.number b.kind b.bytes := by
  unfold State.frameOf State.bodyBytes
  cases b with
  | status => exact absurd rfl h
  | stock lane article pack count state confidence => rfl
  | survey pairs => rfl
  | disturb zone hold => rfl
  | raise group key mask level quality aggregate reorder => rfl
  | clear group key mask => rfl

theorem keepUp_own {s : State} (h : s.line.use = .busyOwn) : (keepUp s).queue = s.queue :=
  keepUp_queue_of_use (by rw [h]; exact LineUse.noConfusion)

/-- A count of a deferral changes one counter alone. -/
theorem countDeferral_same (x : Entry) (s : State) :
    ∃ c, countDeferral x s = { s with station := { s.station with counters := c } } := by
  unfold countDeferral
  split
  · exact ⟨_, rfl⟩
  · exact ⟨_, rfl⟩

/-- A STATUS carries the same before and after the passing of time (R180). -/
theorem countDeferral_spent (e : Nat) (x : Entry) (s : State) :
    let u := countDeferral x s
    let w := countDeferral x (passTime e s).spend
    (some ⟨w.station.counters, w.station.flags, w.lanes.map fun lane => lane.counter.drift, w.line.lastError⟩ : Option Capture)
        = some ⟨u.station.counters, u.station.flags, u.lanes.map fun lane => lane.counter.drift, u.line.lastError⟩
      ∧ statusBytes w = statusBytes u := by
  unfold countDeferral
  split
  · exact ⟨rfl, rfl⟩
  · exact ⟨rfl, rfl⟩

/-- An attempt that begins on a line that is idle, in either order of the deferral's count and the frame's forming (log 6). -/
theorem attemptBegins_either {x : Entry} {s : State} (hx : bestEligible s.queue = some x) (hm : mayBegin x s = true) :
    attemptBegins s = startSending x (countDeferral x s.spend) ∨ attemptBegins s = countDeferral x (startSending x s.spend) := by
  unfold attemptBegins
  rw [hx]
  dsimp only
  rw [if_pos hm]
  unfold inEitherOrder
  split
  · exact Or.inl rfl
  · exact Or.inr rfl

/-- Settles O32, in either order of the deferral's count and the frame's forming. -/
theorem attemptBeginsOnAnIdleLine : Obligations.AttemptBeginsOnAnIdleLine := by
  intro e since x earlier later s awake hq hw hp he hl hs hb ha hv hc hu gapEnds
  have best : bestEligible s.queue = some x := by
    rw [hq]
    exact bestEligible_eq hw hp he hl
  have put : putOnLine s.queue = earlier ++ { x with status := .onLine, tried := true } :: later := by
    rw [hq]
    exact putOnLine_eq hw hp he hl
  have gap := awaitsGap_true (x := x) hs hb ha hv hc
  refine ⟨fun i punctual => ?_, fun hgap => ?_⟩
  · refine punctual _ ?_
    have moment : State.attemptMoments.later s.now (gapEnd x.body.priority since) ∈ s.attemptMoments := by
      rw [attemptMoments_eq awake best hu gap]
      exact List.mem_singleton.mpr rfl
    rw [gapEnd_eq] at moment
    unfold State.timerEnds
    simp only [List.mem_append]
    tauto
  · let v := passTime e s
    have vq : v.queue = s.queue := passTime_queue_of_use (by rw [hu]; exact LineUse.noConfusion) e
    have may : mayBegin x v = true := by
      unfold mayBegin LineUse.idleFor
      rw [Bool.and_eq_true]
      refine ⟨gap, ?_⟩
      rw [passTime_line, hu]
      dsimp only
      rw [gapEnd_eq]
      exact hgap
    rcases attemptBegins_either (vq.symm ▸ best) may with is | is
    · have formed := startSending_begun x (countDeferral x v.spend)
      obtain ⟨carried, bytes⟩ := countDeferral_spent e x s
      obtain ⟨c, hcount⟩ := countDeferral_same x v.spend
      have deferrals := (congrArg Counters.deferrals (startSending_counters x (countDeferral x v.spend))).trans
        (countDeferral_counts x v.spend)
      obtain ⟨queue, line, status, lanes, peers, groups, shock, engine⟩ := formed
      have use : (startSending x (countDeferral x v.spend)).line.use = .busyOwn := by rw [line]
      refine ⟨_, (countDeferral x v.spend).frameOf x.body, exec_timed rfl awake is, ?_, ?_, fun hn => ?_, fun hst => ⟨(status hst).1, _,
        Or.inr rfl, ?_, (status hst).2.trans carried⟩, ?_, use, ?_, deferrals, ?_⟩
      · rw [keepUp_own use, queue, hcount, ← put, ← vq]
        rfl
      · rw [keepUp_line_attempt, line, hcount]
        rfl
      · rw [frameOf_body _ hn, hcount]
        rfl
      · rw [hst, ← bytes]
        exact congrArg (fun n => frameChars n FrameKind.status (statusBytes (countDeferral x v.spend))) (by rw [hcount]; rfl)
      · rw [keepUp_line_receiver, line]
      · rw [keepUp_line_tecCount, line, hcount]
        rfl
      · rw [keepUp_lanes, keepUp_peers, keepUp_groups, keepUp_shock, keepUp_engine, lanes, peers, groups, shock, engine, hcount]
        exact ⟨rfl, rfl, rfl, rfl, rfl⟩
    · obtain ⟨queue, line, status, lanes, peers, groups, shock, engine⟩ := startSending_begun x v.spend
      obtain ⟨c, hcount⟩ := countDeferral_same x (startSending x v.spend)
      have counters : (startSending x v.spend).station.counters = s.station.counters := startSending_counters x v.spend
      have deferrals := countDeferral_counts x (startSending x v.spend)
      rw [counters] at deferrals
      rw [hcount] at is deferrals
      have use : (startSending x v.spend).line.use = .busyOwn := by rw [line]
      refine ⟨_, v.spend.frameOf x.body, exec_timed rfl awake is, ?_, ?_, fun hn => ?_, fun hst => ⟨(status hst).1, s, Or.inl rfl, ?_,
        (status hst).2⟩, ?_, use, ?_, deferrals, lanes, peers, groups, shock, engine⟩
      · rw [keepUp_own (by exact use)]
        exact queue.trans (by rw [State.spend_queue, vq, put])
      · exact congrArg LineController.attempt line
      · rw [frameOf_body _ hn]
        rfl
      · rw [hst]
        rfl
      · exact congrArg LineController.receiver line
      · exact (congrArg LineController.tecCount line).trans rfl

end Sys2Proof.Machine
end


section
/-! PROOF. The ON LINE entry leaves the queue: what its owner is told, what the room that it leaves is for, and its discard. -/

namespace Sys2Proof.Machine

/-! ## Room is given (R112, R113) -/

/-- A queue in which a RAISE or a CLEAR finds a place (R107, R108). -/
def Roomy (q : List Entry) : Prop := q.length < 8 ∨ ∃ x ∈ q, x.waiting = true ∧ 0 < x.body.priority

theorem Roomy.hasPlace {q : List Entry} (h : Roomy q) (i : Identity) : HasPlace i q := h.imp id Or.inr

/-- What an announcement of room leaves. -/
structure RoomGiven (t s : State) : Prop where
  agrees : t.AgreesButQueue s
  others : SameButStock t s
  joinTimer : t.station.joinTimer = s.station.joinTimer
  noneOnLine : NoneOnLine s.queue → NoneOnLine t.queue
  roomy : Roomy s.queue → Roomy t.queue
  reports : KeepsReports t s

namespace RoomGiven

theorem refl (s : State) : RoomGiven s s := ⟨.refl s, .refl s, rfl, id, id, .refl s⟩

theorem trans {u t s : State} (h : RoomGiven u t) (k : RoomGiven t s) : RoomGiven u s :=
  ⟨h.agrees.trans k.agrees, h.others.trans k.others, h.joinTimer.trans k.joinTimer, h.noneOnLine ∘ k.noneOnLine, h.roomy ∘ k.roomy,
    h.reports.trans k.reports⟩

variable {t s : State}

theorem withdrawn (h : RoomGiven t s) {g : GroupNo} (k : RaiseWithdrawn g s.queue) : RaiseWithdrawn g t.queue := k.of_sameButStock h.others

theorem group (h : RoomGiven t s) (g : GroupNo) : t.group g = s.group g := h.agrees.group g

end RoomGiven

theorem coalesce_stock_roomy {b : Body} {now : Time} {q : List Entry} (hb : 0 < b.priority) (h : Roomy q) :
    Roomy (coalesceInto b now q) := by
  refine h.imp (fun h => (List.length_map _).symm ▸ h) fun ⟨x, hx, hw, hp⟩ => ⟨_, List.mem_map_of_mem hx, ?_⟩
  split
  · refine ⟨(coalesce_waiting x b now).trans hw, ?_⟩
    rcases (coalesce_body x b now).2 with k | k <;> rw [k]
    · exact hb
    · exact hp
  · exact ⟨hw, hp⟩

theorem offerOrRefuse_roomy (l : LaneNo) {s : State} (h : Roomy s.queue) : Roomy (offerOrRefuse (s.stockBody l) s).2.queue := by
  have hb : 0 < (s.stockBody l).priority := Nat.zero_lt_succ 2
  unfold offerOrRefuse
  split
  · exact coalesce_stock_roomy hb h
  · split
    · exact Or.inr ⟨Entry.new (s.stockBody l) s.now, List.mem_append_right _ (List.mem_singleton.mpr rfl), rfl, hb⟩
    · exact h

theorem offerOrRefuse_joinTimer (b : Body) (s : State) : (offerOrRefuse b s).2.station.joinTimer = s.station.joinTimer := by
  unfold offerOrRefuse
  split
  · rfl
  · split <;> rfl

theorem laneOffer_roomGiven (l : LaneNo) (s : State) : RoomGiven (laneOffer l s) s := by
  have roomy : Roomy s.queue → Roomy (laneOffer l s).queue := fun h => by
    have k := offerOrRefuse_roomy l h
    unfold laneOffer
    split
    · split <;> next heq => rw [heq] at k; exact k
    · exact h
  have timer : (laneOffer l s).station.joinTimer = s.station.joinTimer := by
    have k := offerOrRefuse_joinTimer (s.stockBody l) s
    unfold laneOffer
    split
    · split <;> next heq => rw [heq] at k; exact k
    · rfl
  exact ⟨laneOffer_agrees l s, laneOffer_sameButStock l s, timer, laneOffer_noneOnLine l, roomy, laneOffer_reports l s⟩

theorem announceRoom_roomGiven (s : State) : RoomGiven (announceRoom s) s :=
  (foldl_relates RoomGiven .refl RoomGiven.trans _ (fun s l => laneOffer_roomGiven l s) _ s.spend).trans
    ⟨rfl, .refl s, rfl, id, id, .refl s⟩

/-- The owner is told in a state that an announcement of room may have come before, and one may come after. -/
theorem removeOnLine_tells (tell : State → State) (s : State) :
    ∃ u, RoomGiven u { s with queue := dropOnLine s.queue } ∧ RoomGiven (removeOnLine tell s) (tell u) := by
  let w : State := State.spend { s with queue := dropOnLine s.queue }
  have spent : RoomGiven w { s with queue := dropOnLine s.queue } := ⟨rfl, .refl _, rfl, id, id, .refl _⟩
  unfold removeOnLine inEitherOrder
  split
  · exact ⟨w, spent, announceRoom_roomGiven _⟩
  · exact ⟨announceRoom w, (announceRoom_roomGiven w).trans spent, .refl _⟩

/-! ## What keeps the line clear -/

theorem noneOnLine_aisle : AisleFrame fun t s => NoneOnLine s.queue → NoneOnLine t.queue where
  refl _ h := h
  trans h k := h ∘ k
  spend _ h := h
  coalesced b s hw h := by
    intro x hx
    obtain ⟨y, hy, rfl⟩ := List.mem_map.mp hx
    split
    · exact (coalesce_waiting y b s.now).trans (h y hy)
    · exact h y hy
  appended b s _ _ h := by
    intro x hx
    rcases List.mem_append.mp hx with hx | hx
    · exact h x hx
    · rw [List.mem_singleton.mp hx]
      rfl
  evicted b v rest s _ hv h := by
    intro x hx
    rcases List.mem_append.mp hx with hx | hx
    · obtain ⟨p, r, hq, hr, -⟩ := victim_splits hv
      refine h x ?_
      rw [hr] at hx
      rw [hq]
      rcases List.mem_append.mp hx with hx | hx
      · exact List.mem_append_left _ hx
      · exact List.mem_append_right _ (List.mem_cons_of_mem _ hx)
    · rw [List.mem_singleton.mp hx]
      rfl
  withdrawn g s h := by
    intro x hx
    obtain ⟨y, hy, -, hw, -⟩ := mem_markWithdrawn (List.mem_filter.mp hx).1
    exact hw.trans (h y hy)
  counted _ _ _ h := h
  reportDue _ _ _ h := h
  survey _ h := h
  group _ _ _ h := h

theorem checkLineState_noneOnLine {s : State} (h : NoneOnLine s.queue) : NoneOnLine (checkLineState s).queue := by
  unfold checkLineState
  split
  · split
    · exact noneOnLine_aisle.eachGroup noneOnLine_aisle.alertListenOnly _ h
    · exact h
  · split <;> exact h

theorem removeOnLine_noneOnLine {tell : State → State} (ht : ∀ s, NoneOnLine s.queue → NoneOnLine (tell s).queue) (s : State) :
    NoneOnLine (removeOnLine tell s).queue := by
  obtain ⟨u, hu, hr⟩ := removeOnLine_tells tell s
  exact hr.noneOnLine (ht u (hu.noneOnLine (dropOnLine_noneOnLine s.queue)))

/-! ## The line as a check of its counts leaves it, beside what its notices leave -/

theorem State.AgreesButAisle.lineChecked {s t : State} (h : t.AgreesButAisle s) (f : LineController → LineController) :
    (t.updateLine f).lineChecked.AgreesButAisle (s.updateLine f).lineChecked := by
  have hl := h.line
  have hn := h.now
  have checked : ((t.updateLine f).updateLine (LineController.checked (t.updateLine f).now)).AgreesButAisle
      ((s.updateLine f).updateLine (LineController.checked (s.updateLine f).now)) := by
    change ((t.aisleView.updateLine f).updateLine (LineController.checked t.now)) = _
    rw [hn, show t.aisleView = s.aisleView from h]
    rfl
  unfold State.lineChecked
  dsimp only
  rw [show (t.updateLine f).line = (s.updateLine f).line from congrArg f hl]
  split
  · exact congrArg (State.latch .listenOnlyEntered) checked
  · exact checked

theorem tellDiscarded_agrees (b : Body) (s : State) : (tellDiscarded b s).AgreesButAisle s := by
  cases b with
  | stock lane article pack count state confidence => exact (laneReport_agrees lane s).aisle
  | survey pairs => exact (surveySettled_agrees s).aisle
  | disturb zone hold => exact .refl s
  | raise group key mask level quality aggregate reorder => exact raiseDiscardedOutcome_agrees group s
  | clear group key mask => exact .refl s
  | status => exact .refl s

theorem removeOnLine_agrees {tell : State → State} (ht : ∀ s, (tell s).AgreesButAisle s) (s : State) :
    (removeOnLine tell s).AgreesButAisle s := by
  obtain ⟨u, hu, hr⟩ := removeOnLine_tells tell s
  exact hr.agrees.aisle.trans ((ht u).trans (hu.agrees.aisle.trans (setQueue_agrees _ s).aisle))

/-- The Line Controller with TEC raised (R97). -/
def tecUp (lc : LineController) : LineController := { lc with tecCount := min (lc.tecCount + 8) 255 }

/-- A discarded entry: TEC is raised before or after the entry leaves (R95). -/
theorem discardEntry_either (b : Body) (s : State) :
    let w := (s.count .excessiveCollisionDiscards 1).spend
    discardEntry b s = removeOnLine (tellDiscarded b) (raiseTec w) ∨ discardEntry b s = raiseTec (removeOnLine (tellDiscarded b) w) := by
  unfold discardEntry inEitherOrder
  split
  · exact Or.inl rfl
  · exact Or.inr rfl

theorem discardEntry_agrees (b : Body) (s : State) :
    (discardEntry b s).AgreesButAisle (State.lineChecked ((s.count .excessiveCollisionDiscards 1).updateLine tecUp)) := by
  rcases discardEntry_either b s with h | h <;> rw [h]
  · refine (removeOnLine_agrees (tellDiscarded_agrees b) _).trans ((checkLineState_agrees _).trans ?_)
    exact (spend_agrees (s.count .excessiveCollisionDiscards 1)).aisle.lineChecked tecUp
  · refine (checkLineState_agrees _).trans (State.AgreesButAisle.lineChecked ?_ tecUp)
    exact (removeOnLine_agrees (tellDiscarded_agrees b) _).trans (spend_agrees (s.count .excessiveCollisionDiscards 1)).aisle

theorem tellDiscarded_noneOnLine (b : Body) (s : State) (h : NoneOnLine s.queue) : NoneOnLine (tellDiscarded b s).queue := by
  cases b with
  | stock lane article pack count state confidence => exact noneOnLine_aisle.laneReport lane s h
  | survey pairs => exact h
  | disturb zone hold => exact h
  | raise group key mask level quality aggregate reorder => exact noneOnLine_aisle.raiseDiscardedOutcome group s h
  | clear group key mask => exact h
  | status => exact h

theorem discardEntry_noneOnLine (b : Body) (s : State) : NoneOnLine (discardEntry b s).queue := by
  rcases discardEntry_either b s with h | h <;> rw [h]
  · exact removeOnLine_noneOnLine (tellDiscarded_noneOnLine b) _
  · exact checkLineState_noneOnLine (removeOnLine_noneOnLine (tellDiscarded_noneOnLine b) _)

/-- What the discard leaves in the line and the counters (R95, R97). -/
theorem discardEntry_line (b : Body) (s : State) :
    (discardEntry b s).line.tecCount = min (s.line.tecCount + 8) 255 ∧ (discardEntry b s).line.recCount = s.line.recCount
      ∧ (discardEntry b s).line.attempt = s.line.attempt ∧ (discardEntry b s).line.receiver = s.line.receiver
      ∧ (discardEntry b s).station.counters.excessiveCollisionDiscards
        = min (s.station.counters.excessiveCollisionDiscards + 1) 65535 := by
  have h := discardEntry_agrees b s
  have line : (discardEntry b s).line = (tecUp s.line).checked s.now := by
    rw [h.line, State.lineChecked_line]
    rfl
  refine ⟨?_, ?_, ?_, ?_, (congrArg Counters.excessiveCollisionDiscards h.counters).trans ?_⟩
  · rw [line, LineController.checked_tecCount]
    rfl
  · rw [line, LineController.checked_recCount]
    rfl
  · rw [line, LineController.checked_attempt]
    rfl
  · rw [line, LineController.checked_receiver]
    rfl
  · rw [State.lineChecked_counters]
    rfl

theorem discardEntry_blocks (b : Body) (s : State) :
    (discardEntry b s).engine = s.engine ∧ (discardEntry b s).shock = s.shock ∧ (discardEntry b s).peers = s.peers := by
  have h := discardEntry_agrees b s
  exact ⟨h.engine.trans (State.lineChecked_engine _), h.shock.trans (State.lineChecked_shock _), h.peers.trans (State.lineChecked_peers _)⟩

/-! ## What a check of the counts leaves of the reports and the SURVEY -/

/-- The join timer and every report are kept. -/
def KeepsNotices (t s : State) : Prop := t.station.joinTimer = s.station.joinTimer ∧ KeepsReports t s

theorem KeepsNotices.trans {u t s : State} (h : KeepsNotices u t) (k : KeepsNotices t s) : KeepsNotices u s :=
  ⟨h.1.trans k.1, h.2.trans k.2⟩

theorem withdrawRaise_joinTimer (g : GroupNo) (s : State) : (withdrawRaise g s).station.joinTimer = s.station.joinTimer := by
  unfold withdrawRaise
  dsimp only
  split
  · exact (announceRoom_roomGiven _).joinTimer
  · rfl

theorem alertListenOnly_notices (g : GroupNo) (s : State) : KeepsNotices (alertListenOnly g s) s := by
  refine ⟨?_, onGroup_reports (fun _ s => ?_) s⟩
  · unfold alertListenOnly State.onGroup
    split
    · dsimp only
      split
      · exact withdrawRaise_joinTimer g _
      · rfl
    · rfl
  · split
    · exact (withdrawRaise_reports g _).trans (updateAlert_reports g _ s)
    · exact .refl s

theorem checkLineState_notices (s : State) : KeepsNotices (checkLineState s) s := by
  unfold checkLineState
  split
  · split
    · refine (foldl_relates KeepsNotices (fun s => ⟨rfl, .refl s⟩) KeepsNotices.trans _ (fun s g => alertListenOnly_notices g s) _ _).trans ?_
      exact ⟨rfl, fun _ => rfl, fun _ h => h⟩
    · exact ⟨rfl, .refl s⟩
  · split
    · exact ⟨rfl, fun _ => rfl, fun _ h => h⟩
    · exact ⟨rfl, .refl s⟩

/-- A discarded STOCK's report is due again (R112, R113). -/
theorem discardEntry_stock {l : LaneNo} {article : Word} {pack count : Nat} {state : LaneState} {confidence : Confidence} (s : State) :
    ReportComes (discardEntry (.stock l article pack count state confidence) s) l := by
  have told (w : State) : ReportComes (removeOnLine (tellDiscarded (.stock l article pack count state confidence)) w) l := by
    obtain ⟨u, -, hr⟩ := removeOnLine_tells (tellDiscarded (.stock l article pack count state confidence)) w
    exact hr.reports.2 l (laneReport_reports l u).2
  rcases discardEntry_either (.stock l article pack count state confidence) s with h | h <;> rw [h]
  · exact told _
  · exact (checkLineState_notices _).2.2 l (told _)

theorem removeOnLine_settles {tell : State → State} (ht : ∀ s, tell s = surveySettled s) {s : State} {entered : Time}
    (h : s.station.joinTimer = some ⟨entered, .offered⟩) :
    (removeOnLine tell s).station.joinTimer = some ⟨entered, .settled s.now⟩ := by
  obtain ⟨u, hu, hr⟩ := removeOnLine_tells tell s
  rw [hr.joinTimer, ht, surveySettled_offered (hu.joinTimer.trans h), hu.agrees.aisle.now]
  rfl

/-- A discarded SURVEY settles the end of JOINING (R112, R175). -/
theorem discardEntry_survey {pairs : List (Word × Word)} {s : State} {entered : Time}
    (h : s.station.joinTimer = some ⟨entered, .offered⟩) :
    (discardEntry (.survey pairs) s).station.joinTimer = some ⟨entered, .settled s.now⟩ := by
  have raised (w : State) : (raiseTec w).station.joinTimer = w.station.joinTimer := (checkLineState_notices _).1
  rcases discardEntry_either (.survey pairs) s with k | k <;> rw [k]
  · refine (removeOnLine_settles (tell := tellDiscarded (.survey pairs)) (fun _ => rfl)
      ((raised (s.count .excessiveCollisionDiscards 1).spend).trans h)).trans ?_
    refine congrArg some (congrArg (JoinTimer.mk entered) (congrArg SurveyProgress.settled ?_))
    exact ((checkLineState_agrees _).now).trans (State.lineChecked_clock _)
  · rw [raised]
    exact removeOnLine_settles (fun _ => rfl) h

/-! ## A discarded RAISE (R155) -/

theorem raiseDiscardedOutcome_other {g : GroupNo} {gr : Group} {s : State} (hg : s.group g = some gr)
    (h : gr.alert.state ≠ .raised ∨ gr.alert.raiseSent = true) : raiseDiscardedOutcome g s = s := by
  rw [raiseDiscardedOutcome, onGroup_some hg]
  refine if_neg fun k => ?_
  rcases h with h | h
  · exact h k.1
  · rw [k.2] at h
    cases h

/-- What a discarded first RAISE leaves of a RAISED record (R155). -/
def RaiseDropped (e : Nat) (g : GroupNo) (gr : Group) (s t : State) : Prop :=
  RaiseWithdrawn g t.queue ∧ ∃ after, t.group g = some after
    ∧ after.record = gr.record ∧ after.alert.level = none ∧ after.alert.repeatTimer = none
    ∧ (gr.record.condition = true → Defers e gr.record s after.alert)
    ∧ (gr.record.condition = false → after.alert.state = .clear)

theorem deferenceMs_eq {s u : State} (hs : u.settings = s.settings) (hn : u.number = s.number) (hp : u.peers = s.peers) (r : GroupRecord)
    (jitter : Nat) : u.deferenceMs r jitter = s.settings.deferenceUnits * 100 * (rank s.number r s.peers + 1) + jitter := by
  unfold State.deferenceMs State.deferenceBaseMs
  rw [hs, hn, hp]

theorem enterPending_repeatTimer {g : GroupNo} {gr : Group} {s : State} (hg : s.group g = some gr) :
    ∃ after, (enterPending g s).group g = some after ∧ after.record = gr.record ∧ after.alert.state = .pending ∧ after.alert.level = none
      ∧ after.alert.repeatTimer = none
      ∧ ∃ jitter < 64, after.alert.deference = some (s.now.addMs (s.deferenceMs gr.record jitter)) := by
  obtain ⟨jitter, hj, h⟩ := enterPending_group hg
  refine ⟨_, h, rfl, ?_, ?_, ?_, jitter, hj, ?_⟩
  · rw [Alert.withOrigin_state]; rfl
  · rw [Alert.withOrigin_level]; rfl
  · rw [Alert.withOrigin_repeatTimer]; rfl
  · rw [Alert.withOrigin_deference]; rfl

/-- A discarded first RAISE of a RAISED record (R155). -/
theorem raiseDiscardedOutcome_first {g : GroupNo} {gr : Group} {u : State} (hg : u.group g = some gr) (hr : gr.alert.state = .raised)
    (hs : gr.alert.raiseSent = false) : RaiseWithdrawn g (raiseDiscardedOutcome g u).queue
      ∧ ∃ after, (raiseDiscardedOutcome g u).group g = some after ∧ after.record = gr.record ∧ after.alert.level = none
        ∧ after.alert.repeatTimer = none
        ∧ (gr.record.condition = true → after.alert.state = .pending
          ∧ ∃ jitter < 64, after.alert.deference = some (u.now.addMs (u.deferenceMs gr.record jitter)))
        ∧ (gr.record.condition = false → after.alert.state = .clear) := by
  have is : raiseDiscardedOutcome g u
      = withdrawRaise g (if gr.record.condition then enterPending g u else u.updateAlert g Alert.toClear) := by
    rw [raiseDiscardedOutcome, onGroup_some hg]
    exact if_pos ⟨hr, hs⟩
  rw [is]
  refine ⟨withdrawRaise_withdrawn g _, ?_⟩
  cases hc : gr.record.condition with
  | true =>
    obtain ⟨after, ha, hrec, hstate, hlevel, hrepeat, hdef⟩ := enterPending_repeatTimer hg
    exact ⟨after, withdrawRaise_group.trans ha, hrec, hlevel, hrepeat, fun _ => ⟨hstate, hdef⟩, fun k => (nomatch k)⟩
  | false =>
    refine ⟨_, withdrawRaise_group.trans (updateAlert_group hg Alert.toClear), rfl, ?_, ?_, fun k => (nomatch k), fun _ => ?_⟩
    · rw [Alert.withOrigin_level]; rfl
    · rw [Alert.withOrigin_repeatTimer]; rfl
    · rw [Alert.withOrigin_state]; rfl

theorem raiseDiscardedOutcome_drops {e : Nat} {g : GroupNo} {gr : Group} {s u : State} (hg : u.group g = some gr)
    (hr : gr.alert.state = .raised) (hs : gr.alert.raiseSent = false) (now : u.now = at' e s) (settings : u.settings = s.settings)
    (number : u.number = s.number) (peers : u.peers = s.peers) : RaiseDropped e g gr s (raiseDiscardedOutcome g u) := by
  obtain ⟨hq, after, ha, hrec, hlevel, hrepeat, hpending, hclear⟩ := raiseDiscardedOutcome_first hg hr hs
  refine ⟨hq, after, ha, hrec, hlevel, hrepeat, fun hc => ?_, hclear⟩
  obtain ⟨hstate, jitter, hj, hdef⟩ := hpending hc
  exact ⟨hstate, jitter, hj, by rw [hdef, now, deferenceMs_eq settings number peers]⟩

/-- The state of the alert record after a discard, with the line in LISTEN-ONLY: a RAISED one has left RAISED, its RAISE withdrawn. -/
def LeavesRaised (g : GroupNo) (gr : Group) (t : State) : Prop :=
  (gr.alert.state ≠ .raised → t.group g = some gr)
    ∧ (gr.alert.state = .raised → RaiseWithdrawn g t.queue ∧ ∃ after, t.group g = some after ∧ after.alert.state ≠ .raised)

theorem LeavesRaised.roomGiven {g : GroupNo} {gr : Group} {s t : State} (h : LeavesRaised g gr s) (k : RoomGiven t s) :
    LeavesRaised g gr t :=
  ⟨fun n => (k.group g).trans (h.1 n), fun r => ⟨k.withdrawn (h.2 r).1, by rw [k.group g]; exact (h.2 r).2⟩⟩

theorem RaiseWithdrawn.dropOnLine {g : GroupNo} {q : List Entry} (h : RaiseWithdrawn g q) : RaiseWithdrawn g (dropOnLine q) :=
  fun x hx hb => h x (List.mem_filter.mp hx).1 hb

theorem FollowsNobody.leavesRaised {g : GroupNo} {gr : Group} {w : Time} {t : State} (h : FollowsNobody g gr w t) : LeavesRaised g gr t :=
  ⟨h.1, fun hr => by
    obtain ⟨hq, after, ha, -, hs, -⟩ := h.2 hr
    exact ⟨hq, after, ha, by rw [hs]; exact AlertState.noConfusion⟩⟩

/-- A group whose record has left RAISED takes nothing of a discard. -/
theorem LeavesRaised.outcome {g : GroupNo} {gr : Group} {s : State} (h : LeavesRaised g gr s) : raiseDiscardedOutcome g s = s := by
  by_cases hr : gr.alert.state = .raised
  · obtain ⟨-, after, ha, hs⟩ := h.2 hr
    exact raiseDiscardedOutcome_other ha (Or.inl hs)
  · exact raiseDiscardedOutcome_other (h.1 hr) (Or.inl hr)

theorem checkLineState_withdrawn {g : GroupNo} {s : State} (h : RaiseWithdrawn g s.queue) : RaiseWithdrawn g (checkLineState s).queue := by
  unfold checkLineState
  split
  · split
    · exact foldl_relates (fun t s : State => RaiseWithdrawn g s.queue → RaiseWithdrawn g t.queue) (fun _ h => h) (fun h k => h ∘ k) _
        (fun _ i => alertListenOnly_keeps i g) _ _ h
    · exact h
  · split <;> exact h

theorem checkLineState_overflow {s : State} (active : s.line.state = .active) (past : 128 ≤ s.line.tecCount ∨ 128 ≤ s.line.recCount) :
    checkLineState s = enterListenOnly s := by
  unfold checkLineState
  rw [active]
  exact if_pos past

/-- A discarded RAISE whose TEC leads to LISTEN-ONLY: in either order the record has left RAISED (R95, R155, R165). -/
theorem discardEntry_raise_overflow {g : GroupNo} {key mask : Word} {level : Option Shortage} {quality : Quality} {aggregate reorder : Nat}
    {gr : Group} {s : State} (hg : s.group g = some gr) (active : s.line.state = .active) (past : 120 ≤ s.line.tecCount) :
    LeavesRaised g gr (discardEntry (.raise g key mask level quality aggregate reorder) s) := by
  have limit : 128 ≤ min (s.line.tecCount + 8) 255 := by omega
  rcases discardEntry_either (.raise g key mask level quality aggregate reorder) s with h | h <;> rw [h]
  · let v := ((s.count .excessiveCollisionDiscards 1).spend).updateLine tecUp
    have raised : LeavesRaised g gr (checkLineState v) := by
      rw [checkLineState_overflow (s := v) active (Or.inl limit)]
      exact (enterListenOnly_follows (s := v) hg).leavesRaised
    obtain ⟨u, hu, hr⟩ := removeOnLine_tells (tellDiscarded (.raise g key mask level quality aggregate reorder)) (checkLineState v)
    have dropped : LeavesRaised g gr { checkLineState v with queue := dropOnLine (checkLineState v).queue } :=
      ⟨raised.1, fun k => ⟨(raised.2 k).1.dropOnLine, (raised.2 k).2⟩⟩
    have before := dropped.roomGiven hu
    have quiet : tellDiscarded (.raise g key mask level quality aggregate reorder) u = u := before.outcome
    rw [quiet] at hr
    exact before.roomGiven hr
  · let w := (s.count .excessiveCollisionDiscards 1).spend
    let r := removeOnLine (tellDiscarded (.raise g key mask level quality aggregate reorder)) w
    obtain ⟨u, hu, hr⟩ := removeOnLine_tells (tellDiscarded (.raise g key mask level quality aggregate reorder)) w
    have there : u.group g = some gr := (hu.group g).trans hg
    have line : r.line = s.line := (removeOnLine_agrees (tellDiscarded_agrees _) w).line
    have enters : raiseTec r = enterListenOnly (r.updateLine tecUp) := by
      refine checkLineState_overflow (s := r.updateLine tecUp) ?_ (Or.inl ?_)
      · rw [State.updateLine_line, line]
        exact active
      · rw [State.updateLine_line, line]
        exact limit
    by_cases first : gr.alert.state = .raised ∧ gr.alert.raiseSent = false
    · obtain ⟨hq, after, ha, -, -, -, hpending, hclear⟩ := raiseDiscardedOutcome_first there first.1 first.2
      have left : after.alert.state ≠ .raised := by
        cases hc : gr.record.condition with
        | true => rw [(hpending hc).1]; exact AlertState.noConfusion
        | false => rw [hclear hc]; exact AlertState.noConfusion
      have here : r.group g = some after := (hr.group g).trans ha
      refine ⟨fun k => absurd first.1 k, fun _ => ⟨checkLineState_withdrawn (hr.withdrawn hq), after, ?_, left⟩⟩
      rw [enters]
      exact (enterListenOnly_follows (s := r.updateLine tecUp) here).1 left
    · have quiet : tellDiscarded (.raise g key mask level quality aggregate reorder) u = u := by
        refine raiseDiscardedOutcome_other there ?_
        rwa [not_and_or, Bool.not_eq_false] at first
      rw [quiet] at hr
      rw [enters]
      exact (enterListenOnly_follows (s := r.updateLine tecUp) ((hr.group g).trans there)).leavesRaised

/-- A discarded RAISE whose TEC stays below the limit: the group's part is its outcome alone (R95, R155). -/
theorem discardEntry_raise_calm {g : GroupNo} {key mask : Word} {level : Option Shortage} {quality : Quality} {aggregate reorder : Nat}
    {s : State} (calm : (tecUp s.line).overflows = false) :
    let d := discardEntry (.raise g key mask level quality aggregate reorder) s
    ∃ u, u.group g = s.group g ∧ u.now = s.now ∧ u.settings = s.settings ∧ u.number = s.number ∧ u.peers = s.peers
      ∧ d.group g = (raiseDiscardedOutcome g u).group g
      ∧ (RaiseWithdrawn g (raiseDiscardedOutcome g u).queue → RaiseWithdrawn g d.queue) := by
  intro d
  have still {v : State} (h : v.line = s.line) : raiseTec v = (v.updateLine tecUp).updateLine (LineController.checked v.now) :=
    checkLineState_calm (s := v.updateLine tecUp) (by rw [State.updateLine_line, h]; exact calm)
  let w := (s.count .excessiveCollisionDiscards 1).spend
  rcases discardEntry_either (.raise g key mask level quality aggregate reorder) s with h | h
  · obtain ⟨u, hu, hr⟩ := removeOnLine_tells (tellDiscarded (.raise g key mask level quality aggregate reorder)) (raiseTec w)
    have same := hu.agrees
    rw [still (v := w) rfl] at same
    refine ⟨u, same.group g, same.aisle.now, same.aisle.settings, congrArg BitVec.toNat same.aisle.number, same.aisle.peers, ?_, ?_⟩
    · dsimp only [d]
      rw [h]
      exact hr.group g
    · dsimp only [d]
      rw [h]
      exact hr.withdrawn
  · obtain ⟨u, hu, hr⟩ := removeOnLine_tells (tellDiscarded (.raise g key mask level quality aggregate reorder)) w
    have same := hu.agrees
    have line : (removeOnLine (tellDiscarded (.raise g key mask level quality aggregate reorder)) w).line = s.line :=
      (removeOnLine_agrees (tellDiscarded_agrees _) w).line
    refine ⟨u, same.group g, same.aisle.now, same.aisle.settings, congrArg BitVec.toNat same.aisle.number, same.aisle.peers, ?_, ?_⟩
    · dsimp only [d]
      rw [h, still line]
      exact hr.group g
    · dsimp only [d]
      rw [h, still line]
      exact hr.withdrawn

/-- A discard of an entry that is no RAISE, whose TEC leads to LISTEN-ONLY (R95, R98). -/
theorem discardEntry_enters {e : Nat} {b : Body} {s v : State} (hb : ∀ g, b.isRaiseOf g = false) (groups : v.groups = s.groups)
    (now : v.now = at' e s) (settings : v.settings = s.settings) (active : v.line.state = .active) (past : 120 ≤ v.line.tecCount) :
    EntersListenOnly e s (discardEntry b v) := by
  have limit : 128 ≤ min (v.line.tecCount + 8) 255 := by omega
  have told (u : State) : (tellDiscarded b u).groups = u.groups ∧ SameButStock (tellDiscarded b u) u := by
    cases b with
    | stock lane article pack count state confidence => exact ⟨(laneReport_agrees lane u).groups, laneReport_sameButStock lane u⟩
    | survey pairs => exact ⟨rfl, .refl u⟩
    | disturb zone hold => exact ⟨rfl, .refl u⟩
    | raise group key mask level quality aggregate reorder =>
      have := hb group
      simp [Body.isRaiseOf] at this
    | clear group key mask => exact ⟨rfl, .refl u⟩
    | status => exact ⟨rfl, .refl u⟩
  let w := (v.count .excessiveCollisionDiscards 1).spend
  rcases discardEntry_either b v with h | h <;> rw [h]
  · have enters : EntersListenOnly e s (checkLineState (w.updateLine tecUp)) :=
      checkLineState_enters groups now settings active (Or.inl limit)
    have agrees := removeOnLine_agrees (tellDiscarded_agrees b) (raiseTec w)
    obtain ⟨u, hu, hr⟩ := removeOnLine_tells (tellDiscarded b) (raiseTec w)
    refine enters.of (congrArg LineController.state agrees.line) (congrArg LineController.secondTimer agrees.line) agrees.flags agrees.notes
      (hr.agrees.groups.trans ((told u).1.trans hu.agrees.groups)) fun g k => ?_
    exact hr.withdrawn ((hu.withdrawn k.dropOnLine).of_sameButStock (told u).2)
  · have agrees := removeOnLine_agrees (tellDiscarded_agrees b) w
    obtain ⟨u, hu, hr⟩ := removeOnLine_tells (tellDiscarded b) w
    have line : (removeOnLine (tellDiscarded b) w).line = v.line := agrees.line
    refine checkLineState_enters (hr.agrees.groups.trans ((told u).1.trans (hu.agrees.groups.trans groups))) (agrees.now.trans now)
      (agrees.settings.trans settings) ?_ (Or.inl ?_)
    · rw [State.updateLine_line, line]
      exact active
    · rw [State.updateLine_line, line]
      exact limit

/-! ## The eighth collision -/

theorem jamEnds_discards {ended : Time} {s : State} {x : Entry} (hx : onLineEntry s.queue = some x) (h7 : 7 ≤ x.attempts) :
    jamEnds ended s = discardEntry x.body (endAttempt ended s) := by
  unfold jamEnds
  rw [hx]
  exact if_neg (by omega)

theorem body_of_isRaiseOf {b : Body} {g : GroupNo} (h : b.isRaiseOf g = true) :
    ∃ key mask level quality aggregate reorder, b = .raise g key mask level quality aggregate reorder := by
  cases b with
  | raise group key mask level quality aggregate reorder =>
    rw [Body.isRaiseOf, decide_eq_true_iff] at h
    subst h
    exact ⟨_, _, _, _, _, _, rfl⟩
  | stock lane article pack count state confidence => cases h
  | survey pairs => cases h
  | disturb zone hold => cases h
  | clear group key mask => cases h
  | status => cases h

theorem body_of_survey {b : Body} (h : b.identity = .survey) : ∃ pairs, b = .survey pairs := by
  cases b with
  | survey pairs => exact ⟨pairs, rfl⟩
  | stock lane article pack count state confidence => cases h
  | disturb zone hold => cases h
  | raise group key mask level quality aggregate reorder => cases h
  | clear group key mask => cases h
  | status => cases h

/-- Settles O36: the discard in either order with the rise of TEC. -/
theorem eighthCollisionDiscards : Obligations.EighthCollisionDiscards := by
  intro e frame began ends x s awake ha hd hx h7
  obtain ⟨y, hy, same⟩ := (passTime_remarked e s).onLineEntry.2 x hx
  let v := endAttempt ends (passTime e s)
  have is : jamEnds ends (passTime e s) = discardEntry x.body v := by
    rw [jamEnds_discards hy (by rw [same.attempts, h7]), same.body]
  have runs := exec_jamEnd awake ha hd
  rw [is] at runs
  obtain ⟨htec, hrec, hattempt, hreceiver, hcount⟩ := discardEntry_line x.body v
  obtain ⟨hengine, hshock, hpeers⟩ := discardEntry_blocks x.body v
  refine ⟨_, runs, hcount, htec, hrec, hattempt, hreceiver, ?_, ?_, ?_, ?_, ?_, hpeers, hshock, hengine⟩
  · exact ((discardEntry_noneOnLine x.body v).remarked (keepUp_remarked _)).onLineEntry
  · intro lane article pack count state confidence hb
    have comes := discardEntry_stock (l := lane) (article := article) (pack := pack) (count := count) (state := state)
      (confidence := confidence) v
    rw [← hb] at comes
    exact comes.keepUp.imp id fun ⟨_, hw⟩ => hw
  · intro hb entered hj
    obtain ⟨pairs, hb⟩ := body_of_survey hb
    rw [hb]
    exact discardEntry_survey (s := v) hj
  · intro sound g gr hb hg
    obtain ⟨key, mask, level, quality, aggregate, reorder, hb⟩ := body_of_isRaiseOf hb
    refine ⟨fun active past => ?_, fun h => ?_⟩
    · have left := discardEntry_raise_overflow (key := key) (mask := mask) (level := level) (quality := quality) (aggregate := aggregate)
        (reorder := reorder) (s := v) hg active past
      rw [← hb] at left
      refine ⟨?_, left.1, fun hr => ⟨(left.2 hr).1.remarked (keepUp_remarked _), (left.2 hr).2⟩⟩
      have line := (discardEntry_agrees x.body v).line
      rw [State.lineChecked_line] at line
      rw [keepUp_line_state, line, LineController.checked]
      change (match s.line.state with | .active => _ | .listenOnly => _ : LineController).state = _
      rw [active]
      dsimp only
      rw [if_pos]
      exact Or.inl (by change 128 ≤ min (s.line.tecCount + 8) 255; omega)
    · have calm : (tecUp v.line).overflows = false := by
        refine overflows_false ?_
        cases hs : s.line.state with
        | listenOnly => exact Or.inl hs
        | active =>
          refine Or.inr ⟨?_, (sound.2.2.1 hs).2⟩
          change min (s.line.tecCount + 8) 255 < 128
          have := h.resolve_left (by rw [hs]; exact LineState.noConfusion)
          omega
      obtain ⟨u, hgu, now, settings, number, peers, hgroup, hqueue⟩ := discardEntry_raise_calm (g := g) (key := key) (mask := mask)
        (level := level) (quality := quality) (aggregate := aggregate) (reorder := reorder) (s := v) calm
      rw [← hb] at hgroup hqueue
      have there : u.group g = some gr := hgu.trans hg
      refine ⟨fun hn => ?_, fun hr hs => ?_⟩
      · rw [keepUp_group, hgroup, raiseDiscardedOutcome_other there hn]
        exact there
      · obtain ⟨hq, after, hafter⟩ := raiseDiscardedOutcome_drops (e := e) (s := s) there hr hs now settings number peers
        exact ⟨(hqueue hq).remarked (keepUp_remarked _), after, by rw [keepUp_group, hgroup]; exact hafter⟩
  · intro hb active past
    have enters : EntersListenOnly e s (discardEntry x.body v) := discardEntry_enters hb rfl rfl rfl active past
    exact enters.keepUp

end Sys2Proof.Machine
end


section
/-! PROOF. A brown-out cuts an attempt off; a frame that has been sent, and what a sent STATUS takes off. -/

namespace Sys2Proof.Machine

/-! ## What an event of the line leaves of the other blocks -/

/-- The blocks apart from the line, the queue and the groups. -/
structure State.Steady (t s : State) : Prop where
  brownOut : t.station.brownOut = s.station.brownOut
  supplyGood : t.station.supplyGood = s.station.supplyGood
  warmUpTimer : t.station.warmUpTimer = s.station.warmUpTimer
  phase : t.station.phase = s.station.phase
  clock : t.station.clock = s.station.clock
  engine : t.engine = s.engine
  shock : t.shock = s.shock
  peers : t.peers = s.peers
  counter : ∀ l, (t.lane l).counter = (s.lane l).counter
  state : ∀ l, (t.lane l).service.state = (s.lane l).service.state

namespace State.Steady

theorem refl (s : State) : s.Steady s := ⟨rfl, rfl, rfl, rfl, rfl, rfl, rfl, rfl, fun _ => rfl, fun _ => rfl⟩

theorem trans {u t s : State} (h : u.Steady t) (k : t.Steady s) : u.Steady s :=
  ⟨h.1.trans k.1, h.2.trans k.2, h.3.trans k.3, h.4.trans k.4, h.5.trans k.5, h.6.trans k.6, h.7.trans k.7, h.8.trans k.8,
    fun l => (h.9 l).trans (k.9 l), fun l => (h.10 l).trans (k.10 l)⟩

end State.Steady

theorem State.AgreesButAisle.steady {t s : State} (h : t.AgreesButAisle s) : t.Steady s :=
  ⟨h.brownOut, h.supplyGood, h.warmUpTimer, h.phase, h.clock, h.engine, h.shock, h.peers, h.counter, h.laneState⟩

theorem steady_line : LineFrame State.Steady where
  refl := State.Steady.refl
  trans := State.Steady.trans
  spend s := (spend_agrees s).aisle.steady
  coalesced _ s _ := (setQueue_agrees _ s).aisle.steady
  appended _ s _ _ := (setQueue_agrees _ s).aisle.steady
  evicted _ _ _ s _ _ := (setQueue_agrees _ s).aisle.steady
  withdrawn _ s := (setQueue_agrees _ s).aisle.steady
  counted _ _ _ := ⟨rfl, rfl, rfl, rfl, rfl, rfl, rfl, rfl, fun _ => rfl, fun _ => rfl⟩
  reportDue l b s := (setReportDue_agrees l b s).aisle.steady
  survey s := (surveySettled_agrees s).aisle.steady
  group g f s := (updateGroup_agrees g f s).steady
  queue q s := (setQueue_agrees q s).aisle.steady
  line _ _ := ⟨rfl, rfl, rfl, rfl, rfl, rfl, rfl, rfl, fun _ => rfl, fun _ => rfl⟩
  latched _ _ := ⟨rfl, rfl, rfl, rfl, rfl, rfl, rfl, rfl, fun _ => rfl, fun _ => rfl⟩
  noted _ := ⟨rfl, rfl, rfl, rfl, rfl, rfl, rfl, rfl, fun _ => rfl, fun _ => rfl⟩

/-! ## Brown-out (R96, R177) -/

/-- The state in which a brown-out meets an attempt in progress. -/
def fallen (s : State) : State :=
  abandonRound (dropAttemptBytes (s.updateStation fun st => { st with supplyGood := false, brownOut := .low, warmUpTimer := none }))

theorem enterBrownOut_eq (s : State) : enterBrownOut s = abandonAttempt (fallen s) := rfl

/-- What the fall of the supply changes before it reaches the attempt. -/
theorem fallen_eq (s : State) : ∃ block, fallen s = { s with
    station := { s.station with supplyGood := false, brownOut := .low, warmUpTimer := none, block := block }
    engine := { s.engine with
      transaction := none
      pendingRound := false
      channels := s.engine.channels.map fun c => { c with result := .none } } } := by
  unfold fallen dropAttemptBytes
  split
  · exact ⟨_, rfl⟩
  · exact ⟨_, rfl⟩

/-- A jam that ends takes the attempt off the line (R95). -/
theorem jamEnds_line (ended : Time) (s : State) : (jamEnds ended s).line.attempt = none ∧ (jamEnds ended s).line.receiver = .waitIdle := by
  cases hx : onLineEntry s.queue with
  | none =>
    unfold jamEnds
    rw [hx]
    exact ⟨rfl, rfl⟩
  | some x =>
    rcases Nat.lt_or_ge x.attempts 7 with h | h
    · obtain ⟨r, -, is⟩ := jamEnds_backsOff (ended := ended) hx h
      have line := (returnEntry_agrees (Entry.backedOff (x.attempts + 1) (ended.addUs (r * 512)) s.now) (endAttempt ended s).spend).aisle.line
      rw [is, line]
      exact ⟨rfl, rfl⟩
    · rw [jamEnds_discards hx h]
      obtain ⟨-, -, ha, hr, -⟩ := discardEntry_line x.body (endAttempt ended s)
      exact ⟨ha, hr⟩

/-- A brown-out leaves no attempt (R96). -/
theorem abandonAttempt_line (s : State) :
    (abandonAttempt s).line.attempt = none ∧ (s.line.attempt ≠ none → (abandonAttempt s).line.receiver = .waitIdle) := by
  unfold abandonAttempt
  split
  · next ha => exact ⟨ha, fun k => absurd ha k⟩
  · split
    · refine ⟨?_, fun _ => ?_⟩ <;> rw [(returnEntry_agrees id _).aisle.line] <;> rfl
    · exact ⟨(jamEnds_line _ s).1, fun _ => (jamEnds_line _ s).2⟩

theorem abandonAttempt_sending {s : State} {a : Attempt} (ha : s.line.attempt = some a) (hs : a.stage = .sending) :
    abandonAttempt s = returnEntry id (endAttempt (s.line.sentLowEnd (a.began.usUntil s.now)) s) := by
  unfold abandonAttempt
  rw [ha]
  dsimp only
  rw [hs]

theorem abandonAttempt_jamming {s : State} {a : Attempt} (ha : s.line.attempt = some a) (hs : a.stage = .jamming) :
    abandonAttempt s = jamEnds s.now s := by
  unfold abandonAttempt
  rw [ha]
  dsimp only
  rw [hs]

/-- Settles O17, by the stage of the attempt that the brown-out cuts off. -/
theorem supplyLowBeginsBrownOut : Obligations.SupplyLowBeginsBrownOut := by
  intro e s awake
  let w := fallen (passTime e s)
  obtain ⟨block, hw⟩ := fallen_eq (passTime e s)
  have runs : exec (.supplyMonitorLow e) s = .next (keepUp (abandonAttempt w)) := by
    change Host.Outcome.next (if s.station.phase = .reset then setSupply false s else timed e enterBrownOut s) = _
    rw [if_neg awake, timed_awake awake, enterBrownOut_eq]
  have steady := steady_line.abandonAttempt w
  obtain ⟨attempt, receiver⟩ := abandonAttempt_line w
  have wline : w.line = s.line := by dsimp only [w]; rw [hw]; rfl
  have marks : Remarked w.queue s.queue := by dsimp only [w]; rw [hw]; exact passTime_remarked e s
  have now : w.now = at' e s := by dsimp only [w]; rw [hw]; rfl
  have counters : w.station.counters = s.station.counters := by dsimp only [w]; rw [hw]; rfl
  have engine : (abandonAttempt w).engine = { s.engine with
      transaction := none
      pendingRound := false
      channels := s.engine.channels.map fun c => { c with result := .none } } := by
    rw [steady.engine]
    dsimp only [w]
    rw [hw]
    rfl
  refine ⟨_, runs, ?_, ?_, ?_, ?_, ?_, ?_, ?_, ?_, fun d => ?_, attempt, fun h => receiver (by rw [wline]; exact h),
    fun a x ha hx => ⟨fun hs => ?_, fun hs h7 => ?_, fun hs h7 => ?_⟩, ?_, ?_, fun l => ⟨?_, ?_⟩⟩
  · exact steady.brownOut.trans (by dsimp only [w]; rw [hw])
  · exact steady.supplyGood.trans (by dsimp only [w]; rw [hw])
  · exact steady.warmUpTimer.trans (by dsimp only [w]; rw [hw])
  · exact steady.phase.trans (by dsimp only [w]; rw [hw]; rfl)
  · exact steady.clock.trans now
  · rw [keepUp_engine, engine]
  · rw [keepUp_engine, engine]
  · rw [keepUp_engine, engine]
  · rw [keepUp_engine, engine]
    exact Eight.get_map _ _ _
  · rw [abandonAttempt_sending (s := w) (wline ▸ ha) hs]
    let v := endAttempt (w.line.sentLowEnd (a.began.usUntil w.now)) w
    have agrees := (returnEntry_agrees id v).aisle
    refine ⟨returnEntry_comesBack (v := v) hx marks now fun _ _ => rfl, ?_, ?_⟩
    · exact (congrArg LineController.tecCount agrees.line).trans ((show v.line.tecCount = w.line.tecCount from rfl).trans (congrArg LineController.tecCount wline))
    · exact agrees.counters.trans (congrArg apartFromQueue counters)
  · rw [abandonAttempt_jamming (s := w) (wline ▸ ha) hs]
    obtain ⟨y, hy, same⟩ := marks.onLineEntry.2 x hx
    obtain ⟨r, hr, jam⟩ := jamEnds_backsOff (ended := w.now) hy (same.attempts ▸ h7)
    rw [same.attempts] at hr jam
    let v := (endAttempt w.now w).spend
    have agrees := (returnEntry_agrees (Entry.backedOff (x.attempts + 1) (w.now.addUs (r * 512)) w.now) v).aisle
    rw [jam]
    refine ⟨?_, ?_, r, hr, ?_⟩
    · exact (congrArg LineController.tecCount agrees.line).trans ((show v.line.tecCount = w.line.tecCount from rfl).trans (congrArg LineController.tecCount wline))
    · exact agrees.counters.trans (congrArg apartFromQueue counters)
    · rw [now]
      exact returnEntry_comesBack (v := (endAttempt (at' e s) w).spend) hx marks now
        (Entry.backedOff_marks (x.attempts + 1) ((at' e s).addUs (r * 512)) (at' e s))
  · rw [abandonAttempt_jamming (s := w) (wline ▸ ha) hs]
    obtain ⟨y, hy, same⟩ := marks.onLineEntry.2 x hx
    rw [jamEnds_discards hy (same.attempts ▸ h7)]
    obtain ⟨htec, -, -, -, hcount⟩ := discardEntry_line y.body (endAttempt w.now w)
    refine ⟨((discardEntry_noneOnLine y.body _).remarked (keepUp_remarked _)).onLineEntry, htec.trans ?_, hcount.trans ?_⟩
    · exact show min (w.line.tecCount + 8) 255 = min (s.line.tecCount + 8) 255 from by rw [wline]
    · exact congrArg (fun c : Counters => min (c.excessiveCollisionDiscards + 1) 65535) counters
  · exact steady.shock.trans (by dsimp only [w]; rw [hw]; rfl)
  · exact steady.peers.trans (by dsimp only [w]; rw [hw]; rfl)
  · exact (steady.counter l).trans (by dsimp only [w]; rw [hw]; rfl)
  · exact (steady.state l).trans (by dsimp only [w]; rw [hw]; rfl)

/-! ## A sent frame (R93, R112) -/

theorem tellSent_line (b : Body) (s : State) : (tellSent b s).line = { s.line with lastError := (tellSent b s).line.lastError } := by
  have same {t : State} (h : t.line = s.line) : t.line = { s.line with lastError := t.line.lastError } := by rw [h]
  cases b with
  | stock lane article pack count state confidence => rfl
  | survey pairs => exact same (surveySettled_agrees s).aisle.line
  | disturb zone hold => rfl
  | raise group key mask level quality aggregate reorder => exact same (linesKept.raiseSentOutcome group s)
  | clear group key mask => rfl
  | status =>
    change (statusReduction s).line = { s.line with lastError := (statusReduction s).line.lastError }
    unfold statusReduction
    split <;> rfl

theorem removeOnLine_sent_line (b : Body) (s : State) :
    (removeOnLine (tellSent b) s).line = { s.line with lastError := (removeOnLine (tellSent b) s).line.lastError } := by
  obtain ⟨u, hu, hr⟩ := removeOnLine_tells (tellSent b) s
  rw [hr.agrees.aisle.line, tellSent_line, hu.agrees.aisle.line]

theorem tellSent_noneOnLine (b : Body) (s : State) (h : NoneOnLine s.queue) : NoneOnLine (tellSent b s).queue := by
  cases b with
  | stock lane article pack count state confidence => exact h
  | survey pairs => exact h
  | disturb zone hold => exact h
  | raise group key mask level quality aggregate reorder => exact noneOnLine_aisle.raiseSentOutcome group s h
  | clear group key mask => exact h
  | status =>
    change NoneOnLine (statusReduction s).queue
    rw [statusReduction_queue]
    exact h

theorem tellSent_blocks (b : Body) (s : State) :
    (tellSent b s).engine = s.engine ∧ (tellSent b s).shock = s.shock ∧ (tellSent b s).peers = s.peers := by
  cases b with
  | stock lane article pack count state confidence => exact ⟨rfl, rfl, rfl⟩
  | survey pairs => exact ⟨rfl, rfl, rfl⟩
  | disturb zone hold => exact ⟨rfl, rfl, rfl⟩
  | raise group key mask level quality aggregate reorder =>
    have h := raiseSentOutcome_agrees group s
    exact ⟨h.engine, h.shock, h.peers⟩
  | clear group key mask => exact ⟨rfl, rfl, rfl⟩
  | status =>
    change (statusReduction s).engine = s.engine ∧ (statusReduction s).shock = s.shock ∧ (statusReduction s).peers = s.peers
    unfold statusReduction
    split <;> exact ⟨rfl, rfl, rfl⟩

/-- But for a STATUS, the owner's notice stays in the aisle. -/
theorem tellSent_agrees {b : Body} (h : b ≠ .status) (s : State) : (tellSent b s).AgreesButAisle s := by
  cases b with
  | stock lane article pack count state confidence => exact .refl s
  | survey pairs => exact (surveySettled_agrees s).aisle
  | disturb zone hold => exact .refl s
  | raise group key mask level quality aggregate reorder => exact raiseSentOutcome_agrees group s
  | clear group key mask => exact .refl s
  | status => exact absurd rfl h

theorem raiseSentOutcome_only (g : GroupNo) (s : State) : (raiseSentOutcome g s).OnlyGroup g s :=
  onGroup_only (fun _ s => by
    split
    · exact updateAlert_only g _ s
    · exact offerClear_only g s
    all_goals exact .refl s) s

/-- A group whose RAISED record's RAISE was not the one sent stays (R155). -/
theorem tellSent_group {b : Body} {g : GroupNo} {gr : Group} {s : State} (hg : s.group g = some gr)
    (h : b.isRaiseOf g = false ∨ gr.alert.state ≠ .raised) : (tellSent b s).group g = some gr := by
  cases b with
  | stock lane article pack count state confidence => exact hg
  | survey pairs => exact hg
  | disturb zone hold => exact hg
  | clear group key mask => exact hg
  | status =>
    change (statusReduction s).group g = some gr
    unfold statusReduction
    split <;> exact hg
  | raise group key mask level quality aggregate reorder =>
    by_cases e : group = g
    · subst e
      have hn : gr.alert.state ≠ .raised := h.resolve_left (by simp [Body.isRaiseOf])
      change (raiseSentOutcome group s).group group = some gr
      rw [raiseSentOutcome, onGroup_some hg]
      split
      · next hr => exact absurd hr hn
      · unfold offerClear State.onGroup
        split
        · exact ((offer_agrees _ s).group group).trans hg
        · exact hg
      all_goals exact hg
    · exact (raiseSentOutcome_only group s g (Ne.symm e)).trans hg

/-- The RAISED record whose RAISE was sent (R155). -/
theorem raiseSentOutcome_raised {g : GroupNo} {gr : Group} {s : State} (hg : s.group g = some gr) (hr : gr.alert.state = .raised) :
    (raiseSentOutcome g s).group g = some { gr with alert := { gr.alert with raiseSent := true } } := by
  have is : raiseSentOutcome g s = s.updateAlert g fun a => { a with raiseSent := true } := by
    rw [raiseSentOutcome, onGroup_some hg]
    rw [hr]
  rw [is]
  exact (updateAlert_origin hg _).2 fun h => h.2 rfl

/-- A record that was CLEAR when its RAISE was sent has its CLEAR offered (R155). -/
theorem raiseSentOutcome_clear {g : GroupNo} {gr : Group} {s : State} (hg : s.group g = some gr) (hr : gr.alert.state = .clear)
    (hp : HasPlace (.alert g) s.queue) :
    ∃ x ∈ (raiseSentOutcome g s).queue, x.waiting = true ∧ x.body = .clear g gr.record.key gr.record.mask := by
  have is : raiseSentOutcome g s = offer (.clear g gr.record.key gr.record.mask) s := by
    rw [raiseSentOutcome, onGroup_some hg]
    rw [hr]
    exact onGroup_some hg _
  rw [is]
  exact offer_waits rfl hp (fun _ _ => rfl) fun l k => (nomatch k)

theorem countCollisions_counts (n : Nat) (s : State) :
    (countCollisions n s).station.counters.singleCollisions
        = (if n = 1 then min (s.station.counters.singleCollisions + 1) 65535 else s.station.counters.singleCollisions)
      ∧ (countCollisions n s).station.counters.multipleCollisions
        = (if 2 ≤ n ∧ n ≤ 7 then min (s.station.counters.multipleCollisions + 1) 65535 else s.station.counters.multipleCollisions)
      ∧ apartFromCollisions (countCollisions n s).station.counters = apartFromCollisions s.station.counters := by
  unfold countCollisions
  by_cases h1 : n = 1
  · rw [if_pos h1, if_pos h1, if_neg (by omega)]
    exact ⟨rfl, rfl, rfl⟩
  · rw [if_neg h1, if_neg h1]
    by_cases h2 : 2 ≤ n ∧ n ≤ 7
    · rw [if_pos h2, if_pos h2]
      exact ⟨rfl, rfl, rfl⟩
    · rw [if_neg h2, if_neg h2]
      exact ⟨rfl, rfl, rfl⟩

/-- Two counters apart, everything else stays at the count of a collision. -/
theorem countCollisions_same (n : Nat) (s : State) :
    ∃ c, countCollisions n s = { s with station := { s.station with counters := c } } := by
  unfold countCollisions
  split
  · exact ⟨_, rfl⟩
  · split
    · exact ⟨_, rfl⟩
    · exact ⟨_, rfl⟩

/-- The state in which the ON LINE entry of a sent frame leaves the queue (R93). -/
def sentState (n : Nat) (s : State) : State := endAttempt (s.line.sentLowEnd s.line.sendingUs) (countCollisions n (lowerTec s))

theorem frameIsSent_eq {s : State} {x : Entry} (hx : onLineEntry s.queue = some x) (sound : LineCountsSound s) :
    frameIsSent s = removeOnLine (tellSent x.body) (sentState x.attempts s) := by
  have queue : (lowerTec s).queue = s.queue := by rw [lowerTec_eq sound]; rfl
  unfold frameIsSent
  dsimp only
  rw [queue, hx]
  rfl

/-- With sound counts only the Line Controller and two counters differ. -/
theorem sentState_eq {s : State} (sound : LineCountsSound s) (n : Nat) : ∃ lc : LineController, ∃ c : Counters,
    sentState n s = { s with station := { s.station with counters := c }, line := lc }
      ∧ lc.attempt = none ∧ lc.receiver = .waitIdle ∧ lc.tecCount = s.line.tecCount - 1 ∧ lc.recCount = s.line.recCount
      ∧ lc.lastError = s.line.lastError
      ∧ c.singleCollisions = (if n = 1 then min (s.station.counters.singleCollisions + 1) 65535 else s.station.counters.singleCollisions)
      ∧ c.multipleCollisions
        = (if 2 ≤ n ∧ n ≤ 7 then min (s.station.counters.multipleCollisions + 1) 65535 else s.station.counters.multipleCollisions)
      ∧ apartFromCollisions c = apartFromCollisions s.station.counters := by
  obtain ⟨c, hc⟩ := countCollisions_same n (lowerTec s)
  obtain ⟨single, multiple, rest⟩ := countCollisions_counts n (lowerTec s)
  rw [hc, lowerTec_eq sound] at single multiple rest
  have is : ∃ low, sentState n s = { s with
      station := { s.station with counters := c }
      line := { LineController.checked s.now { s.line with tecCount := s.line.tecCount - 1 } with
        attempt := none, receiver := .waitIdle, level := .high, lowEnd := low } } := by
    unfold sentState
    rw [hc, lowerTec_eq sound]
    exact ⟨_, rfl⟩
  obtain ⟨low, is⟩ := is
  refine ⟨_, c, is, rfl, rfl, ?_, ?_, ?_, single, multiple, rest⟩
  · exact LineController.checked_tecCount _ _
  · exact LineController.checked_recCount _ _
  · exact LineController.checked_lastError _ _

theorem exec_frameSent {e : Nat} {frame : List Byte} {began ends : Time} {x : Entry} {s : State} (awake : Awake s)
    (sound : LineCountsSound s) (ha : s.line.attempt = some ⟨.sending, frame, began, ends⟩) (hd : ends.notAfter (at' e s) = true)
    (hx : onLineEntry s.queue = some x) :
    exec (.frameSent e) s = .next (keepUp (removeOnLine (tellSent x.body) (sentState x.attempts (passTime e s)))) := by
  refine exec_timed rfl awake ?_
  rw [passTime_line, ha]
  refine (if_pos hd).trans ?_
  obtain ⟨y, hy, same⟩ := (passTime_remarked e s).onLineEntry.2 x hx
  rw [frameIsSent_eq (s := passTime e s) hy sound, same.body, same.attempts]

theorem length_dropOnLine {q : List Entry} {x : Entry} (h : onLineEntry q = some x) : (dropOnLine q).length < q.length := by
  obtain ⟨hw, before, after, hq, -⟩ := List.find?_eq_some_iff_append.mp h
  refine List.length_filter_lt_length_iff_exists.mpr ⟨x, ?_, ?_⟩
  · rw [hq]
    exact List.mem_append_right _ List.mem_cons_self
  · have waits : x.waiting = false := by simpa using hw
    simp [waits]

/-- Settles O33: the owner is told before or after the room is announced, and what it is told changes its own record alone. -/
theorem sentFrameLeavesTheQueue : Obligations.SentFrameLeavesTheQueue := by
  intro e frame began ends x s awake sound ha hd hx
  obtain ⟨lc, c, hz, attempt, receiver, tec, hrec, -, single, multiple, -⟩ := sentState_eq (s := passTime e s) sound x.attempts
  let z := sentState x.attempts (passTime e s)
  have zgroups : z.groups = s.groups := by dsimp only [z]; rw [hz]; rfl
  have zqueue : Remarked z.queue s.queue := by dsimp only [z]; rw [hz]; exact passTime_remarked e s
  have zline : z.line = lc := by dsimp only [z]; rw [hz]
  obtain ⟨u, hu, hr⟩ := removeOnLine_tells (tellSent x.body) z
  have line := removeOnLine_sent_line x.body z
  rw [zline] at line
  have ugroup (g : GroupNo) : u.group g = s.group g := (hu.group g).trans (congrArg (Four.get · g) zgroups)
  obtain ⟨engine, shock, peers⟩ := tellSent_blocks x.body u
  have back := hr.agrees.aisle
  have front := hu.agrees.aisle
  refine ⟨_, exec_frameSent awake sound ha hd hx, ?_, ?_, ?_, ?_, ?_, fun hst => ?_, fun g gr hb hg hraised => ?_, fun g gr hg h => ?_,
    fun g gr hb hg hclear hlen => ?_, fun hb entered hj => ?_, ?_, ?_, ?_⟩
  · rw [keepUp_line_attempt, line, attempt]
  · rw [keepUp_line_receiver, line, receiver]
  · rw [keepUp_line_tecCount, line, tec]
    rfl
  · rw [keepUp_line_recCount, line, hrec]
    rfl
  · exact ((removeOnLine_noneOnLine (tellSent_noneOnLine x.body) z).remarked (keepUp_remarked _)).onLineEntry
  · have counters := back.counters.trans ((tellSent_agrees hst u).counters.trans front.counters)
    have zcounters : z.station.counters = c := by dsimp only [z]; rw [hz]
    exact ⟨(congrArg Counters.singleCollisions counters).trans ((congrArg Counters.singleCollisions zcounters).trans single),
      (congrArg Counters.multipleCollisions counters).trans ((congrArg Counters.multipleCollisions zcounters).trans multiple)⟩
  · obtain ⟨key, mask, level, quality, aggregate, reorder, hbody⟩ := body_of_isRaiseOf hb
    have told : (tellSent x.body u).group g = some { gr with alert := { gr.alert with raiseSent := true } } := by
      rw [hbody]
      exact raiseSentOutcome_raised ((ugroup g).trans hg) hraised
    exact ⟨_, (hr.group g).trans told, rfl, rfl⟩
  · exact (hr.group g).trans (tellSent_group ((ugroup g).trans hg) h)
  · obtain ⟨key, mask, level, quality, aggregate, reorder, hbody⟩ := body_of_isRaiseOf hb
    have room : Roomy u.queue := by
      refine hu.roomy (Or.inl ?_)
      obtain ⟨y, hy, -⟩ := zqueue.onLineEntry.2 x hx
      have shorter := length_dropOnLine hy
      rw [zqueue.length] at shorter
      exact Nat.lt_of_lt_of_le shorter hlen
    obtain ⟨y, hy, hw, hyb⟩ := raiseSentOutcome_clear ((ugroup g).trans hg) hclear (room.hasPlace (.alert g))
    have there : y ∈ (tellSent x.body u).queue := by rw [hbody]; exact hy
    have stays := (hr.others y fun l k => by rw [hyb] at k; cases k).mpr there
    obtain ⟨v, hv, same⟩ := (keepUp_remarked _).mem stays
    exact ⟨v, hv, same.waiting.trans hw, same.body.trans hyb⟩
  · obtain ⟨pairs, hbody⟩ := body_of_survey hb
    have zjoin : z.station.joinTimer = some ⟨entered, .offered⟩ := by dsimp only [z]; rw [hz]; exact hj
    have settled := removeOnLine_settles (tell := tellSent x.body) (fun s => by rw [hbody]; rfl) zjoin
    have znow : z.now = at' e s := by dsimp only [z]; rw [hz]; rfl
    rw [keepUp_station, settled, znow]
  · exact back.engine.trans (engine.trans (front.engine.trans (by dsimp only [z]; rw [hz]; rfl)))
  · exact back.shock.trans (shock.trans (front.shock.trans (by dsimp only [z]; rw [hz]; rfl)))
  · exact back.peers.trans (peers.trans (front.peers.trans (by dsimp only [z]; rw [hz]; rfl)))

/-! ## A sent STATUS (R181) -/

/-- What a sent STATUS takes off, in a state with a capture. -/
theorem statusReduction_takes {s : State} {c : Capture} (h : s.station.capture = some c) :
    (statusReduction s).station.counters = s.station.counters.less c.counters
      ∧ (statusReduction s).station.flags = s.station.flags.keep c.flags s.station.notes.flags
      ∧ (∀ l, ((statusReduction s).lane l).counter.drift
        = keepFlag (s.lane l).counter.drift (c.drift.get l) (s.station.notes.drift.get l))
      ∧ (statusReduction s).line.lastError = keepCode s.line.lastError c.errorCode s.station.notes.errorCode := by
  unfold statusReduction
  rw [h]
  refine ⟨rfl, rfl, fun l => ?_, rfl⟩
  simp [State.lane, Four.get_of]

theorem less_apart {a b : Counters} (c : Counters) (h : apartFromQueue a = apartFromQueue b) :
    apartFromQueue (a.less c) = apartFromQueue (b.less c) := by
  cases a
  cases b
  simp only [apartFromQueue, Counters.mk.injEq] at h
  simp only [apartFromQueue, Counters.less, Counters.mk.injEq]
  simp_all

theorem less_apartFromCollisions {a b : Counters} (c : Counters) (h : apartFromCollisions a = apartFromCollisions b) :
    apartFromCollisions (a.less c) = apartFromCollisions (b.less c) := by
  cases a
  cases b
  simp only [apartFromCollisions, Counters.mk.injEq] at h
  simp only [apartFromCollisions, Counters.less, Counters.mk.injEq]
  simp_all

theorem apart_comm (c : Counters) : apartFromCollisions (apartFromQueue c) = apartFromQueue (apartFromCollisions c) := rfl

/-- Settles O34: the reduction before or after the room is announced. -/
theorem sentStatusReducesWhatItCarried : Obligations.SentStatusReducesWhatItCarried := by
  intro e frame began ends x c s awake sound ha hd hx hst hcap cleared
  obtain ⟨lc, k, hz, -, -, -, -, herr, single, multiple, rest⟩ := sentState_eq (s := passTime e s) sound x.attempts
  let z := sentState x.attempts (passTime e s)
  have zstation : z.station = { (passTime e s).station with counters := k } := by dsimp only [z]; rw [hz]
  have zline : z.line.lastError = s.line.lastError := by dsimp only [z]; rw [hz]; exact herr
  have zlane (l : LaneNo) : z.lane l = s.lane l := by dsimp only [z]; rw [hz]; rfl
  obtain ⟨u, hu, hr⟩ := removeOnLine_tells (tellSent x.body) z
  have told : tellSent x.body u = statusReduction u := by rw [hst]; rfl
  rw [told] at hr
  have back := hr.agrees.aisle
  have front := hu.agrees.aisle
  have ucap : u.station.capture = some c := front.capture.trans (by
    change z.station.capture = some c
    rw [zstation]
    exact hcap)
  obtain ⟨counters, flags, drift, error⟩ := statusReduction_takes ucap
  have unotes : u.station.notes = s.station.notes := front.notes.trans (by
    change z.station.notes = s.station.notes
    rw [zstation]
    rfl)
  have uflags : u.station.flags = s.station.flags := front.flags.trans (by
    change z.station.flags = s.station.flags
    rw [zstation]
    rfl)
  have ucounters : apartFromQueue u.station.counters = apartFromQueue k := front.counters.trans (by
    change apartFromQueue z.station.counters = apartFromQueue k
    rw [zstation])
  have final : apartFromQueue (removeOnLine (tellSent x.body) z).station.counters = apartFromQueue (k.less c.counters) :=
    back.counters.trans ((congrArg apartFromQueue counters).trans (less_apart c.counters ucounters))
  have tflags : (removeOnLine (tellSent x.body) z).station.flags = s.station.flags.keep c.flags s.station.notes.flags := by
    rw [back.flags, flags, uflags, unotes]
  refine ⟨_, exec_frameSent awake sound ha hd hx, ?_, ?_, ?_, ?_, ?_, ?_, ?_, ?_, fun l => ?_, ?_⟩
  · rw [keepUp_station]
    refine (congrArg apartFromCollisions final).trans ?_
    rw [apart_comm, less_apartFromCollisions c.counters rest]
    rfl
  · exact (congrArg Counters.singleCollisions final).trans (congrArg (· - c.counters.singleCollisions) single)
  · exact (congrArg Counters.multipleCollisions final).trans (congrArg (· - c.counters.multipleCollisions) multiple)
  · exact congrArg Flags.configAdjusted tflags
  · exact congrArg Flags.sensorBusFault tflags
  · exact congrArg Flags.numberClash tflags
  · exact congrArg Flags.lineStuck tflags
  · exact congrArg Flags.listenOnlyEntered tflags
  · have lane : (u.lane l).counter = (s.lane l).counter := (front.counter l).trans (congrArg Lane.counter (zlane l))
    rw [keepUp_lane, back.counter l, drift l, lane, unotes]
    rfl
  · have code : (keepUp (removeOnLine (tellSent x.body) z)).line.lastError = keepCode u.line.lastError c.errorCode u.station.notes.errorCode :=
      (congrArg LineController.lastError back.line).trans error
    rw [code, front.line, unotes]
    change keepCode z.line.lastError _ _ = _
    rw [zline]
    rfl

end Sys2Proof.Machine
end


section
/-! PROOF. The timers of the alert records, the reports that fall due, and the rate tick. -/

namespace Sys2Proof.Machine

/-! ## Deference and repeat (R153, R154) -/

/-- What an expired deference leaves of a PENDING record (R153). -/
theorem deferenceExpired_group {g : GroupNo} {gr : Group} {s : State} (hg : s.group g = some gr) :
    ∃ after, (deferenceExpired g gr s).group g = some after ∧ after.record = gr.record
      ∧ (gr.record.condition = false → after.alert.state = .clear ∧ after.alert.deference = none)
      ∧ (gr.record.condition = true → s.line.state = .listenOnly → after.alert.state = .pending
        ∧ ∃ jitter < 64, after.alert.deference = some (s.now.addMs (s.deferenceMs gr.record jitter)))
      ∧ (gr.record.condition = true → s.line.state = .active → after.alert.state = .raised
        ∧ after.alert.level = gr.record.level.shortage ∧ after.alert.raiseSent = false
        ∧ after.alert.repeatTimer = some (s.now.addMs s.repeatMs) ∧ after.alert.deference = none
        ∧ (HasPlace (.alert g) s.queue → RaiseWaits g gr.record gr.record.level.shortage (deferenceExpired g gr s).queue)) := by
  unfold deferenceExpired
  by_cases hc : gr.record.condition = false
  · rw [if_pos hc]
    refine ⟨_, updateAlert_group hg _, rfl, fun _ => ⟨?_, ?_⟩, fun k => absurd (hc.symm.trans k) Bool.false_ne_true,
      fun k => absurd (hc.symm.trans k) Bool.false_ne_true⟩
    · exact Alert.withOrigin_state ..
    · exact Alert.withOrigin_deference ..
  · rw [if_neg hc]
    by_cases hl : s.line.state = .listenOnly
    · rw [if_pos hl]
      obtain ⟨after, ha, hr, hp, -, -, ends⟩ := enterPending_repeatTimer hg
      exact ⟨after, ha, hr, fun k => absurd k hc, fun _ _ => ⟨hp, ends⟩, fun _ k => by rw [hl] at k; exact LineState.noConfusion k⟩
    · rw [if_neg hl]
      have raised := updateAlert_group hg (Alert.toRaised gr.record.level.shortage (s.now.addMs s.repeatMs))
      refine ⟨_, offerRaise_group.trans raised, rfl, fun k => absurd k hc, fun _ k => absurd k hl,
        fun _ _ => ⟨?_, ?_, ?_, ?_, ?_, fun hp => ?_⟩⟩
      · exact Alert.withOrigin_state ..
      · exact Alert.withOrigin_level ..
      · exact Alert.withOrigin_raiseSent ..
      · exact Alert.withOrigin_repeatTimer ..
      · exact Alert.withOrigin_deference ..
      · have waits := offerRaise_waits raised hp
        rw [Alert.withOrigin_level] at waits
        exact waits

theorem exec_deferenceExpiry {e : Nat} {g : GroupNo} {gr : Group} {s : State} (awake : Awake s) (hg : s.group g = some gr)
    (hs : gr.alert.state = .pending) (hd : due gr.alert.deference (at' e s) = true) :
    exec (.deferenceExpiry e g) s = .next (keepUp (deferenceExpired g gr (passTime e s))) :=
  exec_timed rfl awake ((onGroup_some ((passTime_group e s g).trans hg) _).trans (if_pos ⟨hs, hd⟩))

theorem exec_repeatExpiry {e : Nat} {g : GroupNo} {gr : Group} {s : State} (awake : Awake s) (hg : s.group g = some gr)
    (hs : gr.alert.state = .raised) (hd : due gr.alert.repeatTimer (at' e s) = true) :
    exec (.repeatExpiry e g) s = .next (keepUp (repeatRaise g (passTime e s))) :=
  exec_timed rfl awake ((onGroup_some ((passTime_group e s g).trans hg) _).trans (if_pos ⟨hs, hd⟩))

/-- Settles O47, by the condition and the line state, and by the repeated RAISE. -/
theorem deferenceAndRepeatExpire : Obligations.DeferenceAndRepeatExpire := by
  intro e g gr s awake hg
  have there : (passTime e s).group g = some gr := (passTime_group e s g).trans hg
  have place (h : HasPlace (.alert g) s.queue) : HasPlace (.alert g) (passTime e s).queue := h.remarked (passTime_remarked e s)
  refine ⟨fun hs hd => ?_, fun hs hd => ?_⟩
  · obtain ⟨after, ha, hr, clear, pending, raised⟩ := deferenceExpired_group there
    have agrees := deferenceExpired_agrees g gr (passTime e s)
    refine ⟨_, after, exec_deferenceExpiry awake hg hs hd, ha, hr, clear, fun hc hl => ?_, fun hc hl => ?_, agrees.peers, agrees.engine⟩
    · obtain ⟨hp, jitter, hj, ends⟩ := pending hc hl
      rw [deferenceMs_eq rfl rfl rfl] at ends
      exact ⟨hp, jitter, hj, ends⟩
    · obtain ⟨state, level, sent, repeats, deference, waits⟩ := raised hc hl
      exact ⟨state, level, sent, repeats, deference, fun h => (waits (place h)).remarked (keepUp_remarked _)⟩
  · have agrees := repeatRaise_agrees g (passTime e s)
    exact ⟨_, _, exec_repeatExpiry awake hg hs hd, repeatRaise_group there, rfl, rfl,
      fun h => (repeatRaise_waits there (place h)).remarked (keepUp_remarked _), agrees.peers, agrees.engine⟩

/-! ## Reports (R115, R116) -/

theorem eachLane_laneReport_comes (l : LaneNo) (s : State) : ReportComes (eachLane laneReport s) l := by
  obtain ⟨u, -, hf⟩ := eachLane_passes KeepsReports.refl KeepsReports.trans (fun s => ⟨fun _ => rfl, fun _ h => h⟩) (f := laneReport) (l := l)
    (fun s m _ => (laneReport_reports m s).1) s
  exact hf.2 l (laneReport_reports l u).2

theorem exec_reportTimerExpiry {e : Nat} {expiry : Time} {s : State} (awake : Awake s) (ht : s.reportTimer = some expiry)
    (hd : expiry.notAfter (at' e s) = true) :
    exec (.reportTimerExpiry e) s = .next (keepUp (reportsFall expiry (passTime e s))) := by
  refine exec_timed rfl awake ?_
  have same : (passTime e s).reportTimer = some expiry := ht
  rw [same]
  exact if_pos hd

/-- Settles O43: each lane's report comes in its turn, and nothing after it loses the report. -/
theorem reportsFallDue : Obligations.ReportsFallDue := by
  intro e s awake
  refine ⟨fun expiry ht hd => ?_, fun l hd => ?_⟩
  · let v : State := { passTime e s with reportTimer := some (expiry.addMs (passTime e s).reportMs) }
    have agrees : (eachLane laneReport v).AgreesButQueue v := eachLane_agrees laneReport_agrees v
    refine ⟨_, exec_reportTimerExpiry awake ht hd, agrees.aisle.reportTimer, fun l => ?_, agrees.groups, agrees.aisle.peers,
      fun l => agrees.aisle.counter l⟩
    exact (eachLane_laneReport_comes l v).keepUp.reported (agrees.aisle.laneState l)
  · let v := (passTime e s).updateService l fun sv => { sv with surveyDelay := none }
    have agrees := laneReport_agrees l v
    have other (m : LaneNo) : (v.lane m).counter = (s.lane m).counter ∧ (v.lane m).service.state = (s.lane m).service.state := by
      dsimp only [v]
      rw [updateService_lane]
      split
      · next h => subst h; exact ⟨rfl, rfl⟩
      · exact ⟨rfl, rfl⟩
    obtain ⟨due, hdue⟩ := laneReport_lane l v
    refine ⟨_, exec_timed rfl awake (if_pos hd), ?_, (laneReport_reports l v).2.keepUp.reported ?_, agrees.groups, agrees.aisle.peers,
      fun m => (agrees.aisle.counter m).trans (other m).1⟩
    · refine (congrArg (fun lane : Lane => lane.service.surveyDelay) hdue).trans ?_
      dsimp only [v]
      rw [updateService_lane_self]
    · exact (agrees.aisle.laneState l).trans (other l).2

/-! ## The rate tick (R137, R138) -/

theorem exec_rateTick {e : Nat} {tick : Time} {s : State} (awake : Awake s) (ht : s.rateTick = some tick)
    (hd : tick.notAfter (at' e s) = true) : exec (.rateTick e) s = .next (keepUp (rateTickFalls tick (passTime e s))) := by
  refine exec_timed rfl awake ?_
  have same : (passTime e s).rateTick = some tick := ht
  rw [same]
  exact if_pos hd

theorem skipsRate_iff (gr : Group) : skipsRate gr = true
    ↔ gr.record.membershipChanged = true ∨ gr.record.quality = .indeterminate ∨ gr.alert.state = .suspended := by
  simp [skipsRate, or_assoc]

/-- Settles O46: each group takes the tick once, in a state that differs in the queue and the groups alone. -/
theorem rateTickReachesEveryGroup : Obligations.RateTickReachesEveryGroup := by
  intro e tick s awake ht hd
  let v : State := { passTime e s with rateTick := some (tick.addMs rateMs) }
  have agrees : (eachGroup groupRateTick v).AgreesButAisle v := eachGroup_agreesAisle groupRateTick_agrees v
  refine ⟨_, exec_rateTick awake ht hd, agrees.rateTick, fun g gr hg => ?_, agrees.peers, agrees.engine, agrees.counter⟩
  obtain ⟨u, hu, ug, hf⟩ := eachGroup_group groupRateTick_agrees groupRateTick_only g v
  let w := u.updateGroup g fun gr => { gr with record := rateUpdate gr }
  have wg : w.group g = some { gr with record := rateUpdate gr } := by
    dsimp only [w]
    rw [updateGroup_group_self, ug]
    exact congrArg (Option.map _) hg
  obtain ⟨after, ha, hr⟩ := evaluate_record g w _ wg
  have wagrees : w.AgreesButAisle (eachGroup groupRateTick v) := (updateGroup_agrees g _ u).trans (hu.trans agrees.symm)
  have evaluated := evaluates_keepUp (e := e) (s := s) wagrees agrees.now wg ha
  have form : ({ gr with record := rateUpdate gr } : Group) = ⟨{ gr.record with
      rate := after.record.rate, previousAggregate := gr.record.aggregate, membershipChanged := false }, gr.alert⟩ := by
    rw [hr]
    unfold rateUpdate
    split <;> rfl
  have rate : after.record.rate = (rateUpdate gr).rate := by rw [hr]; rfl
  refine ⟨after, hf.trans ha, ?_, ?_, fun h => ?_, form ▸ evaluated, fun hm hq hs => ?_⟩
  · rw [hr]
    change (rateUpdate gr).previousAggregate = gr.record.aggregate
    unfold rateUpdate
    split <;> rfl
  · rw [hr]
    change (rateUpdate gr).membershipChanged = false
    unfold rateUpdate
    split <;> rfl
  · rw [rate, rateUpdate, if_pos ((skipsRate_iff gr).mpr h)]
  · rw [rate, rateUpdate, if_neg]
    · rfl
    · intro h
      rcases (skipsRate_iff gr).mp h with h | h | h
      · exact Bool.false_ne_true (hm.symm.trans h)
      · exact hq h
      · exact hs h

end Sys2Proof.Machine
end


section
/-! PROOF. The figures of a group, what an evaluation reports to the alert record, and the end of JOINING. -/

namespace Sys2Proof.Machine

/-! ## The figures (R132 to R135, R139 to R141) -/

theorem holders_eq (s : State) (key mask : Word) : s.holders key mask
    = ((allLanes.filter fun l =>
        decide ((s.lane l).service.state ≠ .off ∧ (s.laneSettings l).article &&& mask = key)).map fun l =>
      ⟨(s.lane l).counter.count * (s.laneSettings l).pack, (s.lane l).service.state, (s.lane l).counter.confidence, false⟩)
      ++ (s.peers.filter fun x => decide (x.article &&& mask = key)).map fun x =>
        ⟨x.count * x.pack, x.state, x.confidence, decide (x.age = .stale)⟩ := by
  simp only [Bool.decide_and]
  rfl

theorem isContributor_iff (h : Holder) : h.isContributor = true ↔ h.state = .inService ∧ h.confidence ≠ .unknown := by
  simp only [Holder.isContributor, Bool.and_eq_true, decide_eq_true_eq]

theorem isContributor_eq (h : Holder) : h.isContributor = decide (h.state = .inService ∧ h.confidence ≠ .unknown) :=
  (Bool.decide_and _ _).symm

theorem isMember_iff (h : Holder) : h.isMember = true ↔ h.stale = false := by
  rw [Holder.isMember, Bool.not_eq_true']

theorem any_contributor_false (hs : List Holder) :
    hs.any Holder.isContributor = false ↔ ∀ h ∈ hs, ¬(h.state = .inService ∧ h.confidence ≠ .unknown) := by
  rw [List.any_eq_false]
  exact forall₂_congr fun h _ => not_congr (isContributor_iff h)

theorem qualityOf_indeterminate (hs : List Holder) :
    qualityOf hs = .indeterminate ↔ ∀ h ∈ hs, ¬(h.state = .inService ∧ h.confidence ≠ .unknown) := by
  rw [← any_contributor_false, qualityOf]
  split
  · next h => exact iff_of_true rfl h
  · next h => exact iff_of_false (by split <;> exact Quality.noConfusion) h

/-- What makes the quality doubtful of a group with a contributor (R134). -/
theorem doubts_iff (h : Holder) :
    ((h.isContributor && (decide (h.confidence = .doubtful) || h.stale))
        || (h.isMember && (decide (h.state = .fault) || decide (h.confidence = .unknown)))) = true
      ↔ h.state = .inService ∧ h.confidence = .doubtful
        ∨ h.state = .inService ∧ h.confidence ≠ .unknown ∧ h.stale = true
        ∨ h.stale = false ∧ (h.state = .fault ∨ h.confidence = .unknown) := by
  simp only [Bool.or_eq_true, Bool.and_eq_true, isContributor_iff, isMember_iff, decide_eq_true_eq]
  constructor
  · rintro (⟨⟨hi, hu⟩, hd | hst⟩ | h)
    · exact Or.inl ⟨hi, hd⟩
    · exact Or.inr (Or.inl ⟨hi, hu, hst⟩)
    · exact Or.inr (Or.inr h)
  · rintro (⟨hi, hd⟩ | ⟨hi, hu, hst⟩ | h)
    · exact Or.inl ⟨⟨hi, by rw [hd]; exact Confidence.noConfusion⟩, Or.inl hd⟩
    · exact Or.inl ⟨⟨hi, hu⟩, Or.inr hst⟩
    · exact Or.inr h

theorem qualityOf_doubtful (hs : List Holder) :
    qualityOf hs = .doubtful ↔ (∃ h ∈ hs, h.state = .inService ∧ h.confidence ≠ .unknown)
      ∧ ∃ h ∈ hs, h.state = .inService ∧ h.confidence = .doubtful
        ∨ h.state = .inService ∧ h.confidence ≠ .unknown ∧ h.stale = true
        ∨ h.stale = false ∧ (h.state = .fault ∨ h.confidence = .unknown) := by
  unfold qualityOf
  split
  · next h =>
    refine iff_of_false Quality.noConfusion fun ⟨⟨x, hx, hc⟩, _⟩ => (any_contributor_false hs).mp h x hx hc
  · next h =>
    have contributes : ∃ h ∈ hs, h.state = .inService ∧ h.confidence ≠ .unknown := by
      obtain ⟨x, hx, hc⟩ := List.any_eq_true.mp (Bool.eq_true_of_not_eq_false h)
      exact ⟨x, hx, (isContributor_iff x).mp hc⟩
    rw [and_iff_right contributes]
    split
    · next hd =>
      obtain ⟨x, hx, hc⟩ := List.any_eq_true.mp hd
      exact iff_of_true rfl ⟨x, hx, (doubts_iff x).mp hc⟩
    · next hd =>
      exact iff_of_false Quality.noConfusion fun ⟨x, hx, hc⟩ => hd (List.any_eq_true.mpr ⟨x, hx, (doubts_iff x).mpr hc⟩)

theorem suspendingOf_iff (hs : List Holder) :
    suspendingOf hs = true ↔ ∃ h ∈ hs, h.stale = false ∧ (h.state = .held ∨ h.state = .resuming) := by
  simp only [suspendingOf, List.any_eq_true, Bool.and_eq_true, Bool.or_eq_true, isMember_iff, decide_eq_true_eq]

theorem projection_iff (leadTime rate aggregate emptyPoint : Nat) : projection leadTime rate aggregate emptyPoint = true
    ↔ leadTime ≠ 0 ∧ 16 * ((aggregate : Int) - emptyPoint) ≤ (rate : Int) * leadTime := by
  simp only [projection, Bool.and_eq_true, decide_eq_true_eq]

/-- The level, by the bands of the aggregate (R140). -/
theorem levelOf_bands (r : GroupRecord) (aggregate : Nat) (quality : Quality) :
    let trigger := projection r.leadTimeMin r.rate aggregate r.emptyPoint
    (quality = .indeterminate → levelOf r aggregate quality = r.level)
      ∧ (quality ≠ .indeterminate →
        (aggregate ≤ r.emptyPoint → levelOf r aggregate quality = .empty)
        ∧ (r.emptyPoint < aggregate → aggregate ≤ r.reorderPoint ∨ trigger = true → levelOf r aggregate quality = .low)
        ∧ (r.emptyPoint < aggregate → r.reorderPoint < aggregate → r.reorderPoint + r.hysteresis ≤ aggregate → trigger = false →
          levelOf r aggregate quality = .ok)
        ∧ (r.emptyPoint < aggregate → r.reorderPoint < aggregate → aggregate < r.reorderPoint + r.hysteresis → trigger = false →
          levelOf r aggregate quality = r.level)) := by
  intro trigger
  unfold levelOf
  refine ⟨fun h => if_pos h, fun h => ⟨fun he => ?_, fun he hl => ?_, fun he hr hh ht => ?_, fun he hr hh ht => ?_⟩⟩
  · exact (if_neg h).trans (if_pos he)
  · exact (if_neg h).trans ((if_neg (by omega)).trans (if_pos hl))
  · have low : ¬ (aggregate ≤ r.reorderPoint ∨ trigger = true) := by
      rintro (k | k)
      · omega
      · exact Bool.false_ne_true (ht.symm.trans k)
    exact (if_neg h).trans ((if_neg (by omega)).trans ((if_neg low).trans (if_pos ⟨hh, ht⟩)))
  · have low : ¬ (aggregate ≤ r.reorderPoint ∨ trigger = true) := by
      rintro (k | k)
      · omega
      · exact Bool.false_ne_true (ht.symm.trans k)
    exact (if_neg h).trans ((if_neg (by omega)).trans ((if_neg low).trans (if_neg fun k => by omega)))

theorem conditionOf_iff (level : Level) (quality : Quality) :
    conditionOf level quality = true ↔ (level = .low ∨ level = .empty) ∧ quality ≠ .indeterminate := by
  have short : level ≠ .ok ↔ level = .low ∨ level = .empty := by cases level <;> decide
  simp only [conditionOf, Bool.and_eq_true, decide_eq_true_eq, short]

/-! ## The alert record at a report (R149 to R151, R163, R164) -/

theorem addUs_zero (t : Time) : t.addUs 0 = t := by
  obtain ⟨ms, us⟩ := t
  have hu : us.val / 1000 = 0 := Nat.div_eq_of_lt us.isLt
  simp [Time.addUs, hu]

theorem Alert.DeferredIn.defers {e : Nat} {s u : State} {r : GroupRecord} {a : Alert} (h : a.DeferredIn u r) (now : u.now = at' e s)
    (settings : u.settings = s.settings) (number : u.number = s.number) (peers : u.peers = s.peers) : Defers e r s a := by
  obtain ⟨hp, jitter, hj, ends⟩ := h
  rw [deferenceMs_eq settings number peers, now] at ends
  exact ⟨hp, jitter, hj, ends⟩

theorem enterPending_deferred {g : GroupNo} {gr : Group} {s : State} (hg : s.group g = some gr) :
    ∃ after, (enterPending g s).group g = some after ∧ after.record = gr.record ∧ after.alert.DeferredIn s gr.record :=
  let ⟨after, ha, hr, hp, _, _, ends⟩ := enterPending_repeatTimer hg
  ⟨after, ha, hr, hp, ends⟩

/-- The test of a CLEAR record (R149). -/
theorem testClear_clear {g : GroupNo} {gr : Group} {s : State} (hg : s.group g = some gr) (hc : gr.alert.state = .clear) :
    (gr.record.condition = true → s.joining = false → testClear g s = enterPending g s)
      ∧ (gr.record.condition = false ∨ s.joining = true → testClear g s = s) := by
  refine ⟨fun h hj => ?_, fun h => ?_⟩
  · rw [testClear, onGroup_some hg, if_pos]
    simp [hc, h, hj]
  · rw [testClear, onGroup_some hg, if_neg]
    rcases h with h | h <;> simp [h]

/-- A record that is not CLEAR takes no test (R149). -/
theorem testClear_other {g : GroupNo} {gr : Group} {s : State} (hg : s.group g = some gr) (hc : gr.alert.state ≠ .clear) :
    testClear g s = s := by
  rw [testClear, onGroup_some hg, if_neg]
  simp [hc]

theorem Alert.withOrigin_toClear (b a : Alert) (now : Time) : b.withOrigin a.toClear now = a.toClear :=
  if_neg fun ⟨h, _⟩ => by rcases h with h | h <;> cases h

theorem Alert.withOrigin_toSuspended (b a : Alert) (now : Time) : b.withOrigin a.toSuspended now = a.toSuspended :=
  if_neg fun ⟨h, _⟩ => by rcases h with h | h <;> cases h

theorem updateAlert_toClear {g : GroupNo} {gr : Group} {s : State} (hg : s.group g = some gr) :
    (s.updateAlert g Alert.toClear).group g = some { gr with alert := gr.alert.toClear } := by
  rw [updateAlert_group hg, Alert.withOrigin_toClear]

/-- A CLEAR record that is tested in a state, or one that has come to CLEAR there. -/
def Alert.TestedIn (s : State) (r : GroupRecord) (a : Alert) : Prop :=
  (r.condition = true → s.joining = false → a.DeferredIn s r) ∧ (r.condition = false ∨ s.joining = true → a.state = .clear)

theorem testClear_tested {g : GroupNo} {gr : Group} {s : State} (hg : s.group g = some gr) (hc : gr.alert.state = .clear) :
    ∃ after, (testClear g s).group g = some after ∧ after.record = gr.record ∧ after.alert.TestedIn s gr.record := by
  obtain ⟨pending, stays⟩ := testClear_clear hg hc
  by_cases h : gr.record.condition = true ∧ s.joining = false
  · rw [pending h.1 h.2]
    obtain ⟨after, ha, hr, deferred⟩ := enterPending_deferred hg
    refine ⟨after, ha, hr, fun _ _ => deferred, ?_⟩
    rintro (k | k)
    · exact absurd (h.1.symm.trans k) Bool.false_ne_true.symm
    · exact absurd (h.2.symm.trans k) Bool.false_ne_true
  · have neither : gr.record.condition = false ∨ s.joining = true := by
      rcases Bool.eq_false_or_eq_true gr.record.condition with k | k
      · exact Or.inr (Bool.eq_true_of_not_eq_false fun j => h ⟨k, j⟩)
      · exact Or.inl k
    rw [stays neither]
    exact ⟨gr, hg, rfl, fun k j => absurd ⟨k, j⟩ h, fun _ => hc⟩

/-- A record that has been tested takes a report without a change (R149, R150). -/
theorem alertReport_tested {g : GroupNo} {gr : Group} {s u : State} (hg : u.group g = some gr) (hj : u.joining = s.joining)
    (h : gr.alert.TestedIn s gr.record) : alertReport g u = u := by
  rw [alertReport, onGroup_some hg]
  by_cases k : gr.record.condition = true ∧ s.joining = false
  · rw [(h.1 k.1 k.2).1]
    exact if_pos k.1
  · have neither : gr.record.condition = false ∨ s.joining = true := by
      rcases Bool.eq_false_or_eq_true gr.record.condition with c | c
      · exact Or.inr (Bool.eq_true_of_not_eq_false fun j => k ⟨c, j⟩)
      · exact Or.inl c
    rw [h.2 neither]
    exact (testClear_clear hg (h.2 neither)).2 (hj ▸ neither)

/-! ## An evaluation (R142) -/

/-- The record that an evaluation in `s` makes of the group's. -/
abbrev State.judges (s : State) (gr : Group) : GroupRecord := gr.record.evaluated (s.holders gr.record.key gr.record.mask)

/-- The state in which an evaluation hands its reports to the alert record. -/
def State.recorded (g : GroupNo) (gr : Group) (s : State) : State := s.updateRecord g fun _ => s.judges gr

theorem recorded_group {g : GroupNo} {gr : Group} {s : State} (hg : s.group g = some gr) :
    (s.recorded g gr).group g = some { gr with record := s.judges gr } := by
  rw [State.recorded, State.updateRecord, updateGroup_group_self, hg]
  rfl

theorem recorded_eq {g : GroupNo} {gr : Group} {s : State} (hg : s.group g = some gr) :
    s.recorded g gr = { s with groups := s.groups.set g (some { gr with record := s.judges gr }) } := by
  have is : s.groups.get g = some gr := hg
  unfold State.recorded State.updateRecord State.updateGroup
  rw [is]
  rfl

theorem evaluate_eq {g : GroupNo} {gr : Group} {s : State} (hg : s.group g = some gr) :
    evaluate g s = levelReport g gr.record (s.judges gr) (suspensionReport g gr.record (s.judges gr) (s.recorded g gr)) :=
  onGroup_some hg _

/-- No figure that the alert record is told of has changed. -/
abbrev GroupRecord.SameFigures (r q : GroupRecord) : Prop := r.level = q.level ∧ r.quality = q.quality ∧ r.condition = q.condition

section
variable {g : GroupNo} {gr : Group} {s : State} (hg : s.group g = some gr)
include hg

theorem evaluate_calm_same (calm : gr.record.suspending = (s.judges gr).suspending) (same : gr.record.SameFigures (s.judges gr)) :
    evaluate g s = s.recorded g gr := by
  rw [evaluate_eq hg, suspensionReport, if_pos calm, levelReport, if_pos same]

theorem evaluate_calm_moved (calm : gr.record.suspending = (s.judges gr).suspending) (moved : ¬ gr.record.SameFigures (s.judges gr)) :
    evaluate g s = alertReport g (s.recorded g gr) := by
  rw [evaluate_eq hg, suspensionReport, if_pos calm, levelReport, if_neg moved]

/-- A calm evaluation of a FOLLOWING or SUSPENDED record, and of a PENDING or TAKEN one whose condition holds, leaves it (R151). -/
theorem evaluate_calm_stays (calm : gr.record.suspending = (s.judges gr).suspending)
    (h : gr.alert.state = .following ∨ gr.alert.state = .suspended
      ∨ (gr.alert.state = .pending ∨ gr.alert.state = .taken) ∧ (s.judges gr).condition = true) :
    evaluate g s = s.recorded g gr := by
  by_cases same : gr.record.SameFigures (s.judges gr)
  · exact evaluate_calm_same hg calm same
  · rw [evaluate_calm_moved hg calm same, alertReport, onGroup_some (recorded_group hg)]
    dsimp only
    rcases h with h | h | ⟨h | h, hc⟩ <;> rw [h]
    · exact if_pos hc
    · exact if_pos hc

theorem evaluate_calm_clears (calm : gr.record.suspending = (s.judges gr).suspending) (moved : ¬ gr.record.SameFigures (s.judges gr))
    (h : gr.alert.state = .pending ∨ gr.alert.state = .taken) (hc : (s.judges gr).condition = false) :
    evaluate g s = (s.recorded g gr).updateAlert g Alert.toClear := by
  have cond : ¬ (s.judges gr).condition = true := by rw [hc]; exact Bool.false_ne_true
  rw [evaluate_calm_moved hg calm moved, alertReport, onGroup_some (recorded_group hg)]
  dsimp only
  rcases h with h | h <;> rw [h] <;> exact if_neg cond

theorem evaluate_calm_tests (calm : gr.record.suspending = (s.judges gr).suspending) (moved : ¬ gr.record.SameFigures (s.judges gr))
    (h : gr.alert.state = .clear) : evaluate g s = testClear g (s.recorded g gr) := by
  rw [evaluate_calm_moved hg calm moved, alertReport, onGroup_some (recorded_group hg)]
  dsimp only
  rw [h]

theorem evaluate_calm_raised (calm : gr.record.suspending = (s.judges gr).suspending) (moved : ¬ gr.record.SameFigures (s.judges gr))
    (h : gr.alert.state = .raised) :
    evaluate g s = raisedReport g { gr with record := s.judges gr } (s.recorded g gr) := by
  rw [evaluate_calm_moved hg calm moved, alertReport, onGroup_some (recorded_group hg)]
  dsimp only
  rw [h]

/-- The suspending member has come (R163): what an evaluation leaves of a record that is not SUSPENDED yet. -/
theorem evaluate_suspends (before : gr.record.suspending = false) (now : (s.judges gr).suspending = true) (h : gr.alert.state ≠ .suspended) :
    evaluate g s = withdrawRaise g ((s.recorded g gr).updateAlert g Alert.toSuspended) := by
  have changed : gr.record.suspending ≠ (s.judges gr).suspending := by rw [before, now]; exact Bool.false_ne_true
  have group : (withdrawRaise g ((s.recorded g gr).updateAlert g Alert.toSuspended)).group g
      = some { record := s.judges gr, alert := gr.alert.toSuspended } := by
    rw [withdrawRaise_group, updateAlert_group (recorded_group hg), Alert.withOrigin_toSuspended]
  rw [evaluate_eq hg, suspensionReport, if_neg changed, if_pos now, suspendAlert, onGroup_some (recorded_group hg), if_neg h, levelReport]
  split
  · rfl
  · rw [alertReport, onGroup_some group]
    rfl

theorem evaluate_suspended (before : gr.record.suspending = false) (now : (s.judges gr).suspending = true)
    (h : gr.alert.state = .suspended) : evaluate g s = s.recorded g gr := by
  have changed : gr.record.suspending ≠ (s.judges gr).suspending := by rw [before, now]; exact Bool.false_ne_true
  rw [evaluate_eq hg, suspensionReport, if_neg changed, if_pos now, suspendAlert, onGroup_some (recorded_group hg), if_pos h, levelReport]
  split
  · rfl
  · rw [alertReport, onGroup_some (recorded_group hg)]
    dsimp only
    rw [h]

/-- The suspending member has gone (R164): a SUSPENDED record comes to CLEAR and is tested there. -/
theorem evaluate_resumes (before : gr.record.suspending = true) (now : (s.judges gr).suspending = false) (h : gr.alert.state = .suspended) :
    ∃ after, (evaluate g s).group g = some after ∧ after.alert.TestedIn (s.recorded g gr) (s.judges gr) := by
  have changed : gr.record.suspending ≠ (s.judges gr).suspending := by rw [before, now]; exact Bool.false_ne_true.symm
  let cleared := (s.recorded g gr).updateAlert g Alert.toClear
  have resumed : suspensionReport g gr.record (s.judges gr) (s.recorded g gr) = testClear g cleared := by
    rw [suspensionReport, if_neg changed, if_neg (by rw [now]; exact Bool.false_ne_true), resumeAlert, onGroup_some (recorded_group hg),
      if_pos h]
  obtain ⟨after, ha, hr, tested⟩ := testClear_tested (s := cleared) (updateAlert_toClear (recorded_group hg)) rfl
  refine ⟨after, ?_, tested⟩
  have record : after.record = s.judges gr := hr
  have joining : (testClear g cleared).joining = cleared.joining := by
    unfold State.joining
    rw [(testClear_agrees g cleared).phase]
  rw [evaluate_eq hg, resumed, levelReport]
  split
  · exact ha
  · rw [alertReport_tested ha joining (hr ▸ tested)]
    exact ha

end

/-- What a RAISED record takes of a report (R150). -/
theorem raisedReport_outcome {g : GroupNo} {gr : Group} {s : State} (hg : s.group g = some gr) (hr : gr.alert.state = .raised) :
    (gr.record.quality = .indeterminate → raisedReport g gr s = s)
      ∧ (gr.record.quality ≠ .indeterminate → gr.record.condition = false →
        (raisedReport g gr s).group g = some { gr with alert := gr.alert.toClear } ∧ RaiseWithdrawn g (raisedReport g gr s).queue
          ∧ (gr.alert.raiseSent = true → HasPlace (.alert g) s.queue →
            ∃ x ∈ (raisedReport g gr s).queue, x.waiting = true ∧ x.body = .clear g gr.record.key gr.record.mask))
      ∧ (gr.record.quality ≠ .indeterminate → gr.record.condition = true → gr.record.level.shortage ≠ gr.alert.level →
        ∃ after, (raisedReport g gr s).group g = some after ∧ after.alert.state = .raised
          ∧ after.alert.level = gr.record.level.shortage ∧ after.alert.raiseSent = gr.alert.raiseSent
          ∧ after.alert.repeatTimer = some (s.now.addMs s.repeatMs)
          ∧ (HasPlace (.alert g) s.queue → RaiseWaits g gr.record gr.record.level.shortage (raisedReport g gr s).queue))
      ∧ (gr.record.quality ≠ .indeterminate → gr.record.condition = true → gr.record.level.shortage = gr.alert.level →
        raisedReport g gr s = s) := by
  unfold raisedReport
  refine ⟨fun hq => if_pos hq, fun hq hc => ?_, fun hq hc hl => ?_, fun hq hc hl => ?_⟩
  · rw [if_neg hq, if_pos hc]
    let u : State := if gr.alert.raiseSent then offerClear g s else s
    have there : u.group g = some gr := by
      dsimp only [u]
      split
      · rw [offerClear, onGroup_some hg]
        exact ((offer_agrees _ s).group g).trans hg
      · exact hg
    refine ⟨withdrawRaise_group.trans (updateAlert_toClear there), withdrawRaise_withdrawn g _, fun hs hp => ?_⟩
    have offered : u = offer (.clear g gr.record.key gr.record.mask) s := (if_pos hs).trans (onGroup_some hg _)
    obtain ⟨x, hx, hw, hb⟩ := offer_waits (b := .clear g gr.record.key gr.record.mask) rfl hp (fun _ _ => rfl) fun l k => (nomatch k)
    refine ⟨x, withdrawRaise_others (s := u.updateAlert g Alert.toClear) ?_ (by rw [hb]; rfl) fun l k => ?_, hw, hb⟩
    · change x ∈ u.queue
      rw [offered]
      exact hx
    · rw [hb] at k
      cases k
  · rw [if_neg hq, if_neg (by rw [hc]; exact Bool.false_ne_true.symm), if_pos hl]
    have changed := updateAlert_group hg fun a =>
      { a with level := gr.record.level.shortage, repeatTimer := some (s.now.addMs s.repeatMs) }
    refine ⟨_, offerRaise_group.trans changed, ?_, ?_, ?_, ?_, fun hp => ?_⟩
    · exact (Alert.withOrigin_state ..).trans hr
    · exact Alert.withOrigin_level ..
    · exact Alert.withOrigin_raiseSent ..
    · exact Alert.withOrigin_repeatTimer ..
    · have waits := offerRaise_waits changed hp
      rw [Alert.withOrigin_level] at waits
      exact waits
  · rw [if_neg hq, if_neg (by rw [hc]; exact Bool.false_ne_true.symm), if_neg fun k => k hl]

/-- A record tested at an evaluation, in the words of the statements. -/
theorem Alert.TestedIn.defers {g : GroupNo} {gr : Group} {s : State} {a : Alert} (h : a.TestedIn (s.recorded g gr) (s.judges gr)) :
    ((s.judges gr).condition = true → s.joining = false → Defers 0 (s.judges gr) s a)
      ∧ ((s.judges gr).condition = false ∨ s.joining = true → a.state = .clear) :=
  ⟨fun hc hj => (h.1 hc hj).defers (addUs_zero s.now).symm rfl rfl rfl, h.2⟩

/-- Settles O52, by the figures one at a time, and by the state of the alert record at each report. -/
theorem groupFigures : Obligations.GroupFigures := by
  refine ⟨holders_eq, fun hs => ⟨?_, qualityOf_indeterminate hs, qualityOf_doubtful hs, suspendingOf_iff hs⟩, projection_iff, levelOf_bands,
    conditionOf_iff, fun g gr s hg => ?_⟩
  · rw [aggregateOf, show Holder.isContributor = _ from funext isContributor_eq]
  · intro hs r t same calm tested cleared
    obtain ⟨after, ha, hr⟩ := evaluate_record g s gr hg
    have there := recorded_group hg
    have is {x : Group} {u : State} (ht : evaluate g s = u) (hx : u.group g = some x) : after = x := by
      rw [ht, hx] at ha
      exact (Option.some.inj ha).symm
    have stays (ht : evaluate g s = s.recorded g gr) : after.alert = gr.alert := by
      rw [is ht there]
    refine ⟨after, ha, hr, fun hc hsame => (evaluate_calm_same hg hc hsame).trans (recorded_eq hg), fun hc hm hst => ?_,
      fun hc hm hst => ⟨fun hcond => ?_, fun hcond => ?_⟩, fun hc hst => ?_, fun hc hm hst => ?_, fun hb hn => ⟨?_, fun hst => ?_⟩,
      fun hb hn hst => ?_⟩
    · obtain ⟨x, hx, -, htest⟩ := testClear_tested there hst
      rw [is (evaluate_calm_tests hg hc hm hst) hx]
      exact htest.defers
    · exact stays (evaluate_calm_stays hg hc (Or.inr (Or.inr ⟨hst, hcond⟩)))
    · rw [is (evaluate_calm_clears hg hc hm hst hcond) (updateAlert_toClear there)]
      exact ⟨rfl, rfl, rfl, rfl, rfl, rfl, rfl, rfl, rfl⟩
    · exact stays (evaluate_calm_stays hg hc (hst.imp id Or.inl))
    · have ht := evaluate_calm_raised hg hc hm hst
      obtain ⟨waits, clears, offers, same⟩ := raisedReport_outcome there hst
      refine ⟨fun hq => ?_, fun hq hcond => ?_, fun hq hcond hl => ?_, fun hq hcond hl => ?_⟩
      · have back := ht.trans (waits hq)
        exact ⟨stays back, show (evaluate g s).queue = (s.recorded g gr).queue from congrArg State.queue back⟩
      · obtain ⟨hx, withdrawn, sent⟩ := clears hq hcond
        rw [is ht hx]
        dsimp only [t]
        rw [ht]
        exact ⟨⟨rfl, rfl, rfl, rfl, rfl, rfl, rfl, rfl, rfl⟩, withdrawn, sent⟩
      · obtain ⟨x, hx, state, level, hsent, repeats, offered⟩ := offers hq hcond hl
        rw [is ht hx]
        dsimp only [t]
        rw [ht]
        exact ⟨state, level, hsent, repeats, offered⟩
      · have back := ht.trans (same hq hcond hl)
        exact ⟨stays back, show (evaluate g s).queue = (s.recorded g gr).queue from congrArg State.queue back⟩
    · by_cases hst : gr.alert.state = .suspended
      · rw [stays (evaluate_suspended hg hb hn hst)]
        exact hst
      · rw [is (evaluate_suspends hg hb hn hst) (withdrawRaise_group.trans (updateAlert_group there _)), Alert.withOrigin_toSuspended]
        rfl
    · have ht := evaluate_suspends hg hb hn hst
      rw [is ht (withdrawRaise_group.trans (updateAlert_group there _)), Alert.withOrigin_toSuspended]
      dsimp only [t]
      rw [ht]
      exact ⟨rfl, rfl, rfl, rfl, rfl, rfl, rfl, rfl, withdrawRaise_withdrawn g _⟩
    · obtain ⟨x, hx, htest⟩ := evaluate_resumes hg hb hn hst
      rw [is rfl hx]
      exact htest.defers

/-! ## JOINING (R175) -/

theorem exec_joinSurveyOffer {e : Nat} {j : JoinTimer} {s : State} (awake : Awake s) (hj : s.station.joinTimer = some j)
    (hs : j.survey = .notOffered) (hd : (j.entered.addMs 3000).notAfter (at' e s) = true) :
    exec (.joinSurveyOffer e) s = .next (keepUp (joinSurvey j (passTime e s))) := by
  refine exec_timed rfl awake ?_
  have timer : (passTime e s).station.joinTimer = some j := hj
  rw [timer]
  refine if_pos ?_
  rw [JoinTimer.surveyDue, hs]
  exact hd

theorem exec_joiningEnd {e : Nat} {j : JoinTimer} {s : State} (awake : Awake s) (hj : s.station.joinTimer = some j)
    (hd : (∃ moment, j.survey = .settled moment ∧ (moment.addMs 4000).notAfter (at' e s) = true)
      ∨ (j.entered.addMs 30000).notAfter (at' e s) = true) :
    exec (.joiningEnd e) s = .next (keepUp (joiningEnds (passTime e s))) := by
  refine exec_timed rfl awake ?_
  have timer : (passTime e s).station.joinTimer = some j := hj
  rw [timer]
  refine if_pos ?_
  rw [JoinTimer.ended, Bool.or_eq_true]
  rcases hd with ⟨moment, hs, hm⟩ | hd
  · rw [hs]
    exact Or.inr hm
  · exact Or.inl hd

/-- The state in which Station Control offers its SURVEY. -/
def surveyNoted (j : JoinTimer) (s : State) : State := s.updateStation fun st => { st with joinTimer := some { j with survey := .offered } }

/-- The SURVEY's offer, by the way the queue takes it (R107, R112, R175). -/
theorem joinSurvey_outcome (j : JoinTimer) (s : State) :
    (s.groupPairs = [] → joinSurvey j s = surveySettled (surveyNoted j s))
      ∧ (s.groupPairs ≠ [] → s.queue.length < 8 → s.queue.any (fun x => x.waitsFor .survey) = false →
        joinSurvey j s = { surveyNoted j s with queue := s.queue ++ [Entry.new (.survey s.groupPairs) s.now] })
      ∧ (s.groupPairs ≠ [] → s.queue.any (fun x => x.waitsFor .survey) = true → joinSurvey j s = surveyNoted j s)
      ∧ (s.groupPairs ≠ [] → 8 ≤ s.queue.length → s.queue.any (fun x => x.waitsFor .survey) = false →
        joinSurvey j s = surveySettled ((surveyNoted j s).count .queueRefusals 1)) := by
  have offers (h : s.groupPairs ≠ []) : joinSurvey j s = offerSurvey s.groupPairs (surveyNoted j s) :=
    if_neg (by rw [List.isEmpty_iff]; exact h)
  refine ⟨fun h => if_pos (List.isEmpty_iff.mpr h), fun h hl hw => ?_, fun h hw => ?_, fun h hl hw => ?_⟩
  · rw [offers h, offerSurvey, offerOrRefuse_appends (b := .survey s.groupPairs) (s := surveyNoted j s) hw hl]
    rfl
  · have same : coalesceInto (.survey s.groupPairs) s.now s.queue = s.queue := by
      unfold coalesceInto
      refine (List.map_congr_left fun x _ => ?_).trans (List.map_id _)
      exact ite_self x
    have taken : offerOrRefuse (.survey s.groupPairs) (surveyNoted j s) = (true, surveyNoted j s) := by
      refine (if_pos hw).trans ?_
      exact congrArg (fun q => (true, { surveyNoted j s with queue := q })) same
    rw [offers h, offerSurvey, taken]
  · rw [offers h, offerSurvey, offerOrRefuse_refuses (b := .survey s.groupPairs) (s := surveyNoted j s) hw hl]

theorem joinSurvey_blocks (j : JoinTimer) (s : State) : (joinSurvey j s).lanes = s.lanes ∧ (joinSurvey j s).groups = s.groups
    ∧ (joinSurvey j s).peers = s.peers ∧ (joinSurvey j s).station.phase = s.station.phase := by
  obtain ⟨none, new, waits, refused⟩ := joinSurvey_outcome j s
  by_cases hp : s.groupPairs = []
  · rw [none hp]
    exact ⟨rfl, rfl, rfl, (surveySettled_agrees _).aisle.phase⟩
  · by_cases hw : (s.queue.any fun x => x.waitsFor .survey) = true
    · rw [waits hp hw]
      exact ⟨rfl, rfl, rfl, rfl⟩
    · rcases Nat.lt_or_ge s.queue.length 8 with hl | hl
      · rw [new hp hl (Bool.eq_false_iff.mpr hw)]
        exact ⟨rfl, rfl, rfl, rfl⟩
      · rw [refused hp hl (Bool.eq_false_iff.mpr hw)]
        exact ⟨rfl, rfl, rfl, (surveySettled_agrees _).aisle.phase⟩

theorem surveySettled_refusals (s : State) :
    (surveySettled s).station.counters.queueRefusals = s.station.counters.queueRefusals := by
  unfold surveySettled
  simp only [State.updateStation_station]
  split <;> rfl

/-- The state in which JOINING has ended and every report falls due (R175). -/
def joined (s : State) : State :=
  { s.updateStation fun st => { st with phase := .running, joinTimer := none } with
    reportTimer := some (s.now.addMs (s.reportPhaseMs + s.reportMs))
    rateTick := some (s.now.addMs rateMs) }

theorem eachGroup_testClear_agrees (s : State) : (eachGroup testClear s).AgreesButGroups s :=
  (foldl_relates State.AgreesButGroups .refl State.AgreesButGroups.trans _ (fun s g => testClear_agreesButGroups g s) _ s.spend).trans rfl

/-- Settles O49, by the way the queue takes the SURVEY; the end of JOINING has its effects on each lane and each group in turn. -/
theorem joiningOffersASurveyAndEnds : Obligations.JoiningOffersASurveyAndEnds := by
  intro e j s awake hj
  refine ⟨fun hs hd => ?_, fun hd => ?_⟩
  · have marks := passTime_remarked e s
    have waits := marks.waitsFor .survey
    obtain ⟨none, new, waiting, refused⟩ := joinSurvey_outcome j (passTime e s)
    obtain ⟨lanes, groups, peers, phase⟩ := joinSurvey_blocks j (passTime e s)
    have settled {u : State} (hu : u.station.joinTimer = some ⟨j.entered, .offered⟩) (hn : u.now = at' e s) :
        (keepUp (surveySettled u)).station.joinTimer = some ⟨j.entered, .settled (at' e s)⟩ := by
      rw [keepUp_station, surveySettled_offered hu, hn]
    refine ⟨_, exec_joinSurveyOffer awake hj hs hd, phase, fun hp => ?_, fun hp hl hw => ?_, fun hp hw => ?_, fun hp hl hw => ?_, lanes, groups,
      peers⟩
    · rw [none hp]
      exact ⟨settled rfl rfl, (keepUp_unmarked _).trans marks.unmarked⟩
    · rw [new hp (marks.length ▸ hl) (waits.trans hw)]
      refine ⟨rfl, (keepUp_unmarked _).trans ?_⟩
      rw [unmarked_append]
      exact (congrArg (· ++ _) marks.unmarked).trans (unmarked_append _ _).symm
    · rw [waiting hp (waits.trans hw)]
      exact ⟨rfl, (keepUp_unmarked _).trans marks.unmarked⟩
    · rw [refused hp (marks.length ▸ hl) (waits.trans hw)]
      refine ⟨settled rfl rfl, (keepUp_unmarked _).trans marks.unmarked, ?_⟩
      exact (surveySettled_refusals ((surveyNoted j (passTime e s)).count .queueRefusals 1)).trans rfl
  · let v := joined (passTime e s)
    let w := eachLane laneReport v
    have lanes : w.AgreesButQueue v := eachLane_agrees laneReport_agrees v
    have groups : (eachGroup testClear w).AgreesButGroups w := eachGroup_testClear_agrees w
    have all : (eachGroup testClear w).AgreesButAisle v := groups.aisle.trans lanes.aisle
    refine ⟨_, exec_joiningEnd awake hj hd, all.phase, ?_, all.reportTimer, all.rateTick, fun l => ?_, fun g gr hg => ?_, all.peers, all.engine,
      all.counter⟩
    · have timer := all.view fun x => x.station.joinTimer
      exact Option.map_eq_none_iff.mp timer
    · have comes : ReportComes (eachGroup testClear w) l := by
        have here := eachLane_laneReport_comes l v
        unfold ReportComes State.lane at here ⊢
        rw [groups.lanes, groups.queue]
        exact here
      exact comes.keepUp.reported (all.laneState l)
    · obtain ⟨u, hu, ug, hf⟩ := eachGroup_group testClear_agrees testClear_only g w
      have there : u.group g = some gr := ug.trans ((lanes.group g).trans hg)
      have agrees : u.AgreesButAisle v := hu.trans lanes.aisle
      have joining : u.joining = false := by
        unfold State.joining
        rw [agrees.phase]
        rfl
      by_cases hc : gr.alert.state = .clear
      · by_cases hcond : gr.record.condition = true
        · rw [(testClear_clear there hc).1 hcond joining] at hf
          obtain ⟨after, ha, hr, deferred⟩ := enterPending_deferred there
          refine ⟨after, hf.trans ha, hr, fun _ _ => deferred.defers agrees.now agrees.settings
            (congrArg BitVec.toNat agrees.number) agrees.peers, ?_⟩
          rintro (k | k)
          · exact absurd hc k
          · exact absurd (hcond.symm.trans k) Bool.false_ne_true.symm
        · rw [(testClear_clear there hc).2 (Or.inl (Bool.eq_false_iff.mpr hcond))] at hf
          exact ⟨gr, hf.trans there, rfl, fun _ k => absurd k hcond, fun _ => rfl⟩
      · rw [testClear_other there hc] at hf
        exact ⟨gr, hf.trans there, rfl, fun k => absurd k hc, fun _ => rfl⟩

end Sys2Proof.Machine
end


section
/-! PROOF. A configuration attempt that fails. -/

namespace Sys2Proof.Machine

/-! ## The failed attempt (R17, R171) -/

/-- The state of an attempt at its end: only time, the bytes of the attempt, a latched flag and its note may differ from the state before. -/
structure AttemptGoesOn (e : Nat) (s v : State) : Prop where
  engine : v.engine = s.engine
  marks : Remarked v.queue s.queue
  lanes : v.lanes = s.lanes
  groups : v.groups = s.groups
  peers : v.peers = s.peers
  phase : v.station.phase = s.station.phase
  now : v.now = at' e s

theorem passTime_goesOn (e : Nat) (s : State) : AttemptGoesOn e s (passTime e s) :=
  ⟨rfl, passTime_remarked e s, rfl, rfl, rfl, rfl, rfl⟩

/-- The state in which a failed attempt has been counted. -/
def attemptCounted (v : State) : State := (endTransaction v).updateEngine fun e => { e with failedAttempts := e.failedAttempts + 1 }

theorem failAttempt_again {v : State} (h : v.engine.failedAttempts + 1 < 3) (d : Bool) :
    failAttempt d v = beginAttempt d (attemptCounted v) := if_pos h

theorem failAttempt_last {v : State} (h : ¬ v.engine.failedAttempts + 1 < 3) (d : Bool) :
    failAttempt d v = enterConfigFault (attemptCounted v) := if_neg h

theorem failAttempt_failed {e : Nat} {s v : State} (h : AttemptGoesOn e s v) (d : Bool) : AttemptFailed e d s (keepUp (failAttempt d v)) := by
  obtain ⟨engine, marks, lanes, groups, peers, phase, now⟩ := h
  have attempts : v.engine.failedAttempts + 1 = s.engine.failedAttempts + 1 := by rw [engine]
  have channels : v.engine.channels = s.engine.channels := by rw [engine]
  unfold AttemptFailed
  by_cases h3 : s.engine.failedAttempts + 1 < 3
  · rw [if_pos h3, failAttempt_again (attempts ▸ h3)]
    refine ⟨attempts, channels, (keepUp_unmarked _).trans marks.unmarked, peers, groups, phase, rfl, lanes, ?_⟩
    rw [← now]
    rfl
  · rw [if_neg h3, failAttempt_last (attempts ▸ h3)]
    refine ⟨attempts, channels, (keepUp_unmarked _).trans marks.unmarked, peers, groups, rfl, rfl, fun l => ?_⟩
    rw [← now]
    unfold State.lane
    rw [← lanes]
    exact Four.get_map _ _ l

theorem failAttempt_flags (d : Bool) (v : State) : (failAttempt d v).station.flags = v.station.flags
    ∧ (failAttempt d v).station.notes = v.station.notes := by
  unfold failAttempt
  dsimp only
  split <;> exact ⟨rfl, rfl⟩

/-- Settles O8: each way to fail is the failed attempt, at most after the bytes of a segment or a latched flag. -/
theorem configAttemptFails : Obligations.ConfigAttemptFails := by
  intro e d s awake fails stuck
  have failed {v : State} (h : AttemptGoesOn e s v) (hf : v.station.flags = s.station.flags) : fails (keepUp (failAttempt d v)) :=
    ⟨failAttempt_failed h d, (failAttempt_flags d v).1.trans hf⟩
  have plain : fails (keepUp (failAttempt d (passTime e s))) := failed (passTime_goesOn e s) rfl
  have stucks (dataHigh : Bool) : stuck dataHigh (keepUp (stuckAttempt dataHigh (passTime e s))) := by
    have h : AttemptGoesOn e s ((passTime e s).latch .sensorBusFault) := ⟨rfl, passTime_remarked e s, rfl, rfl, rfl, rfl, rfl⟩
    obtain ⟨flags, notes⟩ := failAttempt_flags dataHigh ((passTime e s).latch .sensorBusFault)
    exact ⟨failAttempt_failed h dataHigh, flags, congrArg (fun n : CauseNotes => n.flags.sensorBusFault) notes⟩
  refine ⟨fun segment bytes hr hlen hblock htag => ?_, fun hr hb => ?_, fun failedAt ht hd => ?_, fun failedAt ht hd => ?_,
    fun since ht => ?_, fun since received ht hlen hd => ?_⟩
  · let v := (passTime e s).updateStation fun st => { st with block := st.block ++ bytes }
    have goesOn : AttemptGoesOn e s v := ⟨rfl, passTime_remarked e s, rfl, rfl, rfl, rfl, rfl⟩
    refine ⟨_, exec_timed_checked rfl (decide_eq_true hlen) awake ((if_pos hr).trans ?_), failed goesOn rfl⟩
    have number : (passTime e s).station.block.length / 32 = segment := by
      change s.station.block.length / 32 = segment
      omega
    unfold segmentEnds
    dsimp only
    rw [number]
    exact if_pos htag
  · refine ⟨_, exec_timed rfl awake (if_pos ?_), plain⟩
    unfold State.addressing
    rw [passTime_engine, hr]
    change s.station.block.isEmpty = true
    rw [hb]
    rfl
  · refine ⟨_, exec_timed rfl awake ?_, plain⟩
    rw [passTime_engine, ht]
    exact if_pos hd
  · refine ⟨_, exec_timed rfl awake ?_, plain⟩
    rw [passTime_engine, ht]
    exact if_pos hd
  · refine ⟨_, exec_timed rfl awake ?_, stucks false⟩
    rw [passTime_engine, ht]
    exact if_neg Bool.false_ne_true
  · refine ⟨_, exec_timed_checked rfl (decide_eq_true hlen) awake ?_, stucks d⟩
    rw [passTime_engine, ht]
    exact if_pos hd

end Sys2Proof.Machine
end


section
/-! PROOF. What changes of the lanes hand on to the reports and the groups, one change after another (R49, R61, R136, R143). -/

namespace Sys2Proof.Machine

/-! ## Lanes that have the same state, count and confidence -/

/-- The two lanes have the same state, count and confidence: nothing that a change would hand on. -/
structure Lane.Alike (a b : Lane) : Prop where
  state : a.service.state = b.service.state
  count : a.counter.count = b.counter.count
  confidence : a.counter.confidence = b.counter.confidence

namespace Lane.Alike

variable {a b c : Lane}

theorem refl (a : Lane) : a.Alike a := ⟨rfl, rfl, rfl⟩

theorem of_eq (h : a = b) : a.Alike b := h ▸ refl a

theorem symm (h : a.Alike b) : b.Alike a := ⟨h.1.symm, h.2.symm, h.3.symm⟩

theorem trans (h : a.Alike b) (k : b.Alike c) : a.Alike c := ⟨h.1.trans k.1, h.2.trans k.2, h.3.trans k.3⟩

end Lane.Alike

theorem laneDiffers_iff {s t : State} {l : LaneNo} : LaneDiffers s t l ↔ ¬ (s.lane l).Alike (t.lane l) := by
  refine ⟨?_, fun h => ?_⟩
  · rintro (h | h | h) k
    · exact h k.state
    · exact h k.count
    · exact h k.confidence
  · by_contra k
    simp only [LaneDiffers, not_or, not_not] at k
    exact h ⟨k.1, k.2.1, k.2.2⟩

theorem laneChanged_iff {a b : Lane} : laneChanged a b = true ↔ ¬ a.Alike b := by
  unfold laneChanged
  simp only [Bool.or_eq_true, decide_eq_true_eq]
  refine ⟨?_, fun h => ?_⟩
  · rintro ((h | h) | h) k
    · exact h k.state
    · exact h k.count
    · exact h k.confidence
  · by_contra k
    simp only [not_or, not_not] at k
    exact h ⟨k.1.1, k.1.2, k.2⟩

theorem State.AgreesButAisle.alike {s t : State} (h : t.AgreesButAisle s) (l : LaneNo) : (s.lane l).Alike (t.lane l) :=
  ⟨(h.laneState l).symm, congrArg Counter.count (h.counter l).symm, congrArg Counter.confidence (h.counter l).symm⟩

/-! ## What a group sees -/

/-- The lane holds an article of the group. -/
abbrev Group.heldBy (gr : Group) (s : State) (l : LaneNo) : Prop := (s.laneSettings l).article &&& gr.record.mask = gr.record.key

/-- The lane holds an article of the group and has changed. -/
abbrev Group.changedIn (gr : Group) (s x : State) (l : LaneNo) : Prop := gr.heldBy s l ∧ LaneDiffers s x l

/-- The membership-changed flag as the changes leave it (R136). -/
abbrev Group.movedIn (gr : Group) (s x : State) : Prop :=
  gr.record.membershipChanged = true ∨ ∃ l, gr.changedIn s x l
    ∧ Moves (s.lane l).service.state (x.lane l).service.state (s.lane l).counter.confidence (x.lane l).counter.confidence

/-- The blocks apart from the lanes and the groups, as far as an evaluation sees them. -/
structure State.SeesAs (y x : State) : Prop where
  now : y.now = x.now
  config : y.station.config = x.station.config
  peers : y.peers = x.peers
  phase : y.station.phase = x.station.phase
  number : y.station.number = x.station.number

namespace State.SeesAs

variable {x y z : State}

theorem refl (x : State) : x.SeesAs x := ⟨rfl, rfl, rfl, rfl, rfl⟩

theorem trans (h : z.SeesAs y) (k : y.SeesAs x) : z.SeesAs x :=
  ⟨h.1.trans k.1, h.2.trans k.2, h.3.trans k.3, h.4.trans k.4, h.5.trans k.5⟩

theorem laneSettings (h : y.SeesAs x) (l : LaneNo) : y.laneSettings l = x.laneSettings l := by
  unfold State.laneSettings
  rw [h.config]

end State.SeesAs

theorem State.AgreesButLanes.sees {x y : State} (h : y.AgreesButLanes x) : y.SeesAs x := ⟨h.now, h.config, h.peers, h.phase, h.number⟩

theorem laneSettings_of_config {s x : State} (h : x.station.config = s.station.config) (l : LaneNo) : x.laneSettings l = s.laneSettings l := by
  unfold State.laneSettings
  rw [h]

/-- The holders of a group are those of any state with the same table and lanes that the group cannot tell apart. -/
theorem holders_congr {x y : State} {key mask : Word} (sees : y.SeesAs x)
    (h : ∀ l, (x.laneSettings l).article &&& mask = key → (x.lane l).Alike (y.lane l)) : y.holders key mask = x.holders key mask := by
  rw [holders_eq, holders_eq, sees.peers]
  refine congrArg (· ++ _) ?_
  have filters : (allLanes.filter fun l => decide ((y.lane l).service.state ≠ .off ∧ (y.laneSettings l).article &&& mask = key))
      = allLanes.filter fun l => decide ((x.lane l).service.state ≠ .off ∧ (x.laneSettings l).article &&& mask = key) := by
    refine List.filter_congr fun l _ => decide_eq_decide.mpr ?_
    rw [sees.laneSettings]
    exact and_congr_left fun hm => by rw [(h l hm).state]
  rw [filters]
  refine List.map_congr_left fun l hl => ?_
  have hm := (of_decide_eq_true (List.mem_filter.mp hl).2).2
  rw [sees.laneSettings, (h l hm).state, (h l hm).count, (h l hm).confidence]

theorem Evaluates.congr {e : Nat} {s x y : State} {g : GroupNo} {before after : Group} (h : Evaluates e s x x.peers g before after)
    (sees : y.SeesAs x) (alike : ∀ l, before.heldBy x l → (x.lane l).Alike (y.lane l)) : Evaluates e s y y.peers g before after := by
  obtain ⟨u, ug, un, up, uphase, uconfig, unumber, ulanes, ue⟩ := h
  refine ⟨u, ug, un, up.trans sees.peers.symm, uphase.trans sees.phase.symm, uconfig.trans sees.config.symm,
    unumber.trans sees.number.symm, fun l hm => ?_, ue⟩
  rw [sees.laneSettings] at hm
  obtain ⟨state, count, confidence⟩ := ulanes l hm
  have same := alike l hm
  exact ⟨state.trans same.state, count.trans same.count, confidence.trans same.confidence⟩

/-! ## A group that follows the lanes -/

/-- The group `done` of `x` follows the changes of the lanes since `s`, in which it was `gr`. -/
structure Group.Follows (e : Nat) (s x : State) (g : GroupNo) (gr done : Group) : Prop where
  key : done.record.key = gr.record.key
  mask : done.record.mask = gr.record.mask
  flag : done.record.membershipChanged = true ↔ gr.movedIn s x
  stays : (∀ l, ¬ gr.changedIn s x l) → done = gr
  figures : ∀ l, gr.changedIn s x l → done.record.aggregate = aggregateOf (x.holders gr.record.key gr.record.mask)
    ∧ done.record.quality = qualityOf (x.holders gr.record.key gr.record.mask)
    ∧ done.record.suspending = suspendingOf (x.holders gr.record.key gr.record.mask)
    ∧ done.record.condition = conditionOf done.record.level done.record.quality
  once : ∀ l, gr.changedIn s x l → (∀ m, m ≠ l → ¬ gr.changedIn s x m)
    → (s.lane l).service.state ≠ .fault ∨ (x.lane l).service.state ≠ .inService →
    ∃ flag : Bool, (flag = true ↔ gr.movedIn s x) ∧ Evaluates e s x x.peers g (gr.flagged flag) done

theorem Group.changedIn_congr {gr : Group} {s x y : State} (alike : ∀ l, gr.heldBy s l → (x.lane l).Alike (y.lane l)) (l : LaneNo) :
    gr.changedIn s y l ↔ gr.changedIn s x l := by
  refine and_congr_right fun hm => ?_
  rw [laneDiffers_iff, laneDiffers_iff]
  exact not_congr ⟨fun h => h.trans (alike l hm).symm, fun h => h.trans (alike l hm)⟩

theorem Group.movedIn_congr {gr : Group} {s x y : State} (alike : ∀ l, gr.heldBy s l → (x.lane l).Alike (y.lane l)) :
    gr.movedIn s y ↔ gr.movedIn s x := by
  refine or_congr_right (exists_congr fun l => ?_)
  rw [changedIn_congr alike]
  refine and_congr_right fun ⟨hm, _⟩ => ?_
  rw [(alike l hm).state, (alike l hm).confidence]

/-- Nothing that the group sees has changed. -/
theorem Group.Follows.congr {e : Nat} {s x y : State} {g : GroupNo} {gr done : Group} (h : gr.Follows e s x g done)
    (config : x.station.config = s.station.config) (sees : y.SeesAs x) (alike : ∀ l, gr.heldBy s l → (x.lane l).Alike (y.lane l)) :
    gr.Follows e s y g done := by
  have held (l : LaneNo) (hm : gr.heldBy x l) : gr.heldBy s l := by
    rw [Group.heldBy, laneSettings_of_config config] at hm
    exact hm
  have changed := Group.changedIn_congr (s := s) alike
  have moved := Group.movedIn_congr (s := s) alike
  have holders : y.holders gr.record.key gr.record.mask = x.holders gr.record.key gr.record.mask :=
    holders_congr sees fun l hm => alike l (held l hm)
  refine ⟨h.key, h.mask, h.flag.trans moved.symm, fun none => h.stays fun l k => none l ((changed l).mpr k), fun l k => ?_,
    fun l k only exception => ?_⟩
  · rw [holders]
    exact h.figures l ((changed l).mp k)
  · have here : gr.changedIn s x l := (changed l).mp k
    rw [← (alike l here.1).state] at exception
    obtain ⟨flag, hf, ev⟩ := h.once l here (fun m hm c => only m hm ((changed m).mpr c)) exception
    exact ⟨flag, hf.trans moved.symm, ev.congr sees fun m hm => alike m (held m hm)⟩

/-! ## Changes one after another -/

/-- The changes of the lanes since `s` have been handed on in `x`. -/
structure Handed (e : Nat) (s x : State) : Prop where
  now : x.now = at' e s
  config : x.station.config = s.station.config
  reports : ∀ l, LaneDiffers s x l → ReportComes x l
  groups : ∀ g gr, s.group g = some gr → ∃ done, x.group g = some done ∧ gr.Follows e s x g done

theorem Handed.handOn {e : Nat} {s x : State} (h : Handed e s x) : LanesHandOn e s x := by
  refine ⟨h.reports, fun g gr hg => ?_⟩
  obtain ⟨done, hd, follows⟩ := h.groups g gr hg
  refine ⟨fun none => by rw [hd, follows.stays none], fun l hl => ?_⟩
  obtain ⟨aggregate, quality, suspending, condition⟩ := follows.figures l hl
  exact ⟨done, hd, aggregate, quality, suspending, condition, follows.flag, fun only exception => follows.once l hl only exception⟩

/-- Before any lane has changed there is nothing to hand on. -/
theorem Handed.start {e : Nat} {s x : State} (now : x.now = at' e s) (config : x.station.config = s.station.config)
    (alike : ∀ l, (s.lane l).Alike (x.lane l)) (groups : x.groups = s.groups) : Handed e s x := by
  have none (gr : Group) (l : LaneNo) : ¬ gr.changedIn s x l := fun h => laneDiffers_iff.mp h.2 (alike l)
  refine ⟨now, config, fun l h => absurd (alike l) (laneDiffers_iff.mp h), fun g gr hg =>
    ⟨gr, (congrArg (Four.get · g) groups).trans hg, rfl, rfl, ?_, fun _ => rfl, fun l k => absurd k (none gr l),
      fun l k => absurd k (none gr l)⟩⟩
  exact ⟨Or.inl, fun h => h.resolve_right fun ⟨l, k, _⟩ => none gr l k⟩

/-- A step that changes nothing of the lanes that would be handed on. -/
structure State.Quiet (y x : State) : Prop where
  sees : y.SeesAs x
  groups : y.groups = x.groups
  alike : ∀ l, (x.lane l).Alike (y.lane l)
  reports : ∀ l, ReportComes x l → ReportComes y l

namespace State.Quiet

variable {x y z : State}

theorem refl (x : State) : x.Quiet x := ⟨.refl x, rfl, fun l => .refl (x.lane l), fun _ h => h⟩

theorem trans (h : z.Quiet y) (k : y.Quiet x) : z.Quiet x :=
  ⟨h.sees.trans k.sees, h.groups.trans k.groups, fun l => (k.alike l).trans (h.alike l), fun l r => h.reports l (k.reports l r)⟩

end State.Quiet

theorem Handed.quiet {e : Nat} {s x y : State} (h : Handed e s x) (q : y.Quiet x) : Handed e s y := by
  refine ⟨q.sees.now.trans h.now, q.sees.config.trans h.config, fun l hd => ?_, fun g gr hg => ?_⟩
  · refine q.reports l (h.reports l (laneDiffers_iff.mpr fun k => ?_))
    exact laneDiffers_iff.mp hd (k.trans (q.alike l))
  · obtain ⟨done, hx, follows⟩ := h.groups g gr hg
    exact ⟨done, (congrArg (Four.get · g) q.groups).trans hx, follows.congr h.config q.sees fun l _ => q.alike l⟩

/-- A step that changes lane `l` alone, before the change is handed on. -/
structure State.OnlyLane (l : LaneNo) (y x : State) : Prop where
  sees : y.SeesAs x
  groups : y.groups = x.groups
  alike : ∀ m, m ≠ l → (x.lane m).Alike (y.lane m)
  reports : ∀ m, m ≠ l → ReportComes x m → ReportComes y m
  report : (x.lane l).Alike (y.lane l) → ReportComes x l → ReportComes y l

theorem State.OnlyLane.quiet {l : LaneNo} {x y : State} (h : y.OnlyLane l x) (k : (x.lane l).Alike (y.lane l)) : y.Quiet x := by
  refine ⟨h.sees, h.groups, fun m => ?_, fun m => ?_⟩
  · by_cases e : m = l
    · rw [e]
      exact k
    · exact h.alike m e
  · by_cases e : m = l
    · rw [e]
      exact h.report k
    · exact h.reports m e

theorem updateLane_lane (l m : LaneNo) (f : Lane → Lane) (s : State) : (s.updateLane l f).lane m = if m = l then f (s.lane l) else s.lane m :=
  Four.get_set s.lanes l m _

/-- A change of lane `l` that leaves its report-due flag. -/
theorem updateLane_onlyLane {l : LaneNo} {f : Lane → Lane} (s : State)
    (hf : (f (s.lane l)).service.reportDue = (s.lane l).service.reportDue) : (s.updateLane l f).OnlyLane l s := by
  have other (m : LaneNo) (h : m ≠ l) : (s.updateLane l f).lane m = s.lane m := by rw [updateLane_lane, if_neg h]
  refine ⟨⟨rfl, rfl, rfl, rfl, rfl⟩, rfl, fun m h => .of_eq (other m h).symm, fun m h r => ?_, fun k r => ?_⟩
  · unfold ReportComes at r ⊢
    rw [other m h]
    exact r
  · have here : (s.updateLane l f).lane l = f (s.lane l) := by rw [updateLane_lane, if_pos rfl]
    unfold ReportComes at r ⊢
    rw [here] at k ⊢
    rw [hf, ← k.state]
    exact r

/-! ### One change -/

/-- Whether a change of a lane goes on to the groups and sets their flags (R136). -/
theorem groupsTakeLane_group {l : LaneNo} {before : Lane} {s : State} (h : ¬ before.Alike (s.lane l)) (g : GroupNo) :
    ∃ u : State, u.AgreesButAisle s ∧ u.group g = s.group g ∧ (groupsTakeLane l before s).group g
      = (groupTakesLane (s.laneSettings l).article (membershipMoves before.service.state (s.lane l).service.state
        before.counter.confidence (s.lane l).counter.confidence) g u).group g := by
  unfold groupsTakeLane
  dsimp only
  rw [if_pos (laneChanged_iff.mpr h)]
  exact eachGroup_group (groupTakesLane_agrees _ _) (groupTakesLane_only _ _) g s

theorem groupsTakeLane_alike {l : LaneNo} {before : Lane} {s : State} (h : before.Alike (s.lane l)) : groupsTakeLane l before s = s :=
  if_neg fun k => laneChanged_iff.mp k h

/-- The report of a lane after an event that has changed it (R49, R61). -/
def reportChange (force : Bool) (l : LaneNo) (before : Lane) (s : State) : State :=
  if force || laneChanged before (s.lane l) then laneReport l s else s

theorem laneSettled_eq (force : Bool) (l : LaneNo) (before : Lane) (s : State) :
    laneSettled force l before s = inEitherOrder (reportChange force l before) (groupsTakeLane l before) s := rfl

theorem reportChange_agrees (force : Bool) (l : LaneNo) (before : Lane) (s : State) : (reportChange force l before s).AgreesButQueue s := by
  unfold reportChange
  split
  · exact laneReport_agrees l s
  · exact .refl s

theorem reportChange_reports (force : Bool) (l : LaneNo) (before : Lane) (s : State) :
    KeepsReports (reportChange force l before s) s
      ∧ (force = true ∨ ¬ before.Alike (s.lane l) → ReportComes (reportChange force l before s) l) := by
  unfold reportChange
  split
  · exact ⟨(laneReport_reports l s).1, fun _ => (laneReport_reports l s).2⟩
  · next h =>
    refine ⟨.refl s, fun k => absurd ?_ h⟩
    rw [Bool.or_eq_true]
    exact k.imp id laneChanged_iff.mpr

theorem laneSettled_reports (force : Bool) (l : LaneNo) (before : Lane) (s : State) :
    KeepsReports (laneSettled force l before s) s
      ∧ (force = true ∨ ¬ before.Alike (s.lane l) → ReportComes (laneSettled force l before s) l) := by
  have spent : KeepsReports s.spend s := ⟨fun _ => rfl, fun _ h => h⟩
  rw [laneSettled_eq]
  unfold inEitherOrder
  split
  · obtain ⟨keeps, comes⟩ := reportChange_reports force l before s.spend
    have taken := groupsTakeLane_reports l before (reportChange force l before s.spend)
    exact ⟨taken.trans (keeps.trans spent), fun h => taken.2 l (comes h)⟩
  · have taken := groupsTakeLane_reports l before s.spend
    obtain ⟨keeps, comes⟩ := reportChange_reports force l before (groupsTakeLane l before s.spend)
    have alike := (groupsTakeLane_agrees l before s.spend).alike l
    exact ⟨keeps.trans (taken.trans spent), fun h => comes (h.imp id fun k a => k (a.trans alike.symm))⟩

theorem laneSettled_alike {force : Bool} {l : LaneNo} {before : Lane} {s : State} (h : before.Alike (s.lane l)) :
    (laneSettled force l before s).AgreesButQueue s := by
  have spent : s.spend.AgreesButQueue s := spend_agrees s
  have reported := reportChange_agrees force l before s.spend
  rw [laneSettled_eq]
  unfold inEitherOrder
  split
  · rw [groupsTakeLane_alike (h.trans (reported.aisle.alike l))]
    exact reported.trans spent
  · have same : groupsTakeLane l before s.spend = s.spend := groupsTakeLane_alike h
    rw [same]
    exact reported.trans spent

theorem laneSettled_group {force : Bool} {l : LaneNo} {before : Lane} {s : State} (h : ¬ before.Alike (s.lane l)) (g : GroupNo) :
    ∃ u : State, u.AgreesButAisle s ∧ u.group g = s.group g ∧ (laneSettled force l before s).group g
      = (groupTakesLane (s.laneSettings l).article (membershipMoves before.service.state (s.lane l).service.state
        before.counter.confidence (s.lane l).counter.confidence) g u).group g := by
  have spent : s.spend.AgreesButQueue s := spend_agrees s
  rw [laneSettled_eq]
  unfold inEitherOrder
  split
  · have reported := reportChange_agrees force l before s.spend
    have agrees := reported.aisle
    obtain ⟨u, hu, ug, hf⟩ := groupsTakeLane_group (before := before) (s := reportChange force l before s.spend)
      (fun k => h (k.trans (agrees.alike l).symm)) g
    rw [agrees.laneSettings l, agrees.laneState l, agrees.counter l] at hf
    exact ⟨u, hu.trans (agrees.trans spent.aisle), ug.trans (reported.group g), hf⟩
  · obtain ⟨u, hu, ug, hf⟩ := groupsTakeLane_group (before := before) (s := s.spend) h g
    exact ⟨u, hu.trans spent.aisle, ug, ((reportChange_agrees force l before _).group g).trans hf⟩

/-- A lane may change once since `s`, or it comes to IN SERVICE after it has left FAULT. -/
def LaneGoesOn (first before after : Lane) : Prop :=
  first.Alike before ∨ first.service.state = .fault ∧ before.service.state = .resuming ∧ after.service.state = .inService

theorem LaneGoesOn.differs {a b c : Lane} (h : LaneGoesOn a b c) (k : ¬ b.Alike c) : ¬ a.Alike c := fun hc => by
  rcases h with h | ⟨ha, -, hi⟩
  · exact k (h.symm.trans hc)
  · have same := hc.state
    rw [ha, hi] at same
    cases same

theorem LaneGoesOn.moves {a b c : Lane} (h : LaneGoesOn a b c) :
    Moves a.service.state c.service.state a.counter.confidence c.counter.confidence
      ↔ Moves a.service.state b.service.state a.counter.confidence b.counter.confidence
        ∨ Moves b.service.state c.service.state b.counter.confidence c.counter.confidence := by
  rcases h with h | ⟨ha, hb, hc⟩
  · rw [h.state, h.confidence]
    refine ⟨Or.inr, fun k => k.resolve_left ?_⟩
    rintro (m | m) <;> exact m Iff.rfl
  · rw [ha, hb, hc]
    exact iff_of_true (Or.inl (by decide)) (Or.inr (Or.inl (by decide)))

theorem groupTakesLane_match {article : Word} {moves : Bool} {g : GroupNo} {gr : Group} {s : State} (hg : s.group g = some gr)
    (hm : article &&& gr.record.mask = gr.record.key) :
    groupTakesLane article moves g s = evaluate g (if moves then setMembership g s else s) := by
  rw [groupTakesLane, onGroup_some hg, if_pos]
  exact beq_iff_eq.mpr hm

theorem groupTakesLane_other {article : Word} {moves : Bool} {g : GroupNo} {gr : Group} {s : State} (hg : s.group g = some gr)
    (hm : ¬ article &&& gr.record.mask = gr.record.key) : groupTakesLane article moves g s = s := by
  rw [groupTakesLane, onGroup_some hg, if_neg]
  exact fun k => hm (beq_iff_eq.mp k)

/-- A group of the changed lane follows it: the evaluation is the last thing that happens to the group. -/
theorem Group.Follows.evaluated {e : Nat} {s x y z : State} {g : GroupNo} {gr done : Group} {l : LaneNo} (h : gr.Follows e s x g done)
    (hx : x.group g = some done) (config : x.station.config = s.station.config) (now : x.now = at' e s) (only : y.OnlyLane l x)
    (agrees : z.AgreesButAisle y) (path : LaneGoesOn (s.lane l) (x.lane l) (y.lane l)) (changed : ¬ (x.lane l).Alike (y.lane l))
    (held : gr.heldBy s l) {u : State} (hu : u.AgreesButAisle y) (ug : u.group g = y.group g)
    (hz : z.group g = (groupTakesLane (y.laneSettings l).article (membershipMoves (x.lane l).service.state (y.lane l).service.state
      (x.lane l).counter.confidence (y.lane l).counter.confidence) g u).group g) :
    ∃ after, z.group g = some after ∧ gr.Follows e s z g after := by
  have there : u.group g = some done := ug.trans ((congrArg (Four.get · g) only.groups).trans hx)
  have settings (m : LaneNo) : y.laneSettings m = s.laneSettings m := laneSettings_of_config (only.sees.config.trans config) m
  have matches' : (y.laneSettings l).article &&& done.record.mask = done.record.key := by
    rw [h.key, h.mask, settings]
    exact held
  rw [groupTakesLane_match there matches'] at hz
  let moves := membershipMoves (x.lane l).service.state (y.lane l).service.state (x.lane l).counter.confidence (y.lane l).counter.confidence
  let w : State := if moves then setMembership g u else u
  have wg := flagged_group there moves
  have wagrees : w.AgreesButAisle z := (flagged_agrees g u moves).trans (hu.trans agrees.symm)
  obtain ⟨after, ha, hr⟩ := evaluate_record g w _ wg
  have holders : w.holders gr.record.key gr.record.mask = z.holders gr.record.key gr.record.mask :=
    holders_congr wagrees.lanes.sees fun m _ => wagrees.alike m
  have alikeZ (m : LaneNo) : (y.lane m).Alike (z.lane m) := agrees.alike m
  have differs : LaneDiffers s z l := laneDiffers_iff.mpr fun k => path.differs changed (k.trans (alikeZ l).symm)
  have others (m : LaneNo) (hm : m ≠ l) : gr.changedIn s z m ↔ gr.changedIn s x m := by
    refine and_congr_right fun _ => ?_
    rw [laneDiffers_iff, laneDiffers_iff]
    have same := (only.alike m hm).trans (alikeZ m)
    exact not_congr ⟨fun k => k.trans same.symm, fun k => k.trans same⟩
  have flag : (done.record.membershipChanged || moves) = true ↔ gr.movedIn s z := by
    rw [Bool.or_eq_true, h.flag, membershipMoves_iff]
    constructor
    · rintro ((k | ⟨m, hc, hm⟩) | k)
      · exact Or.inl k
      · by_cases eq : m = l
        · subst eq
          refine Or.inr ⟨m, ⟨held, differs⟩, ?_⟩
          rw [← (alikeZ m).state, ← (alikeZ m).confidence]
          exact path.moves.mpr (Or.inl hm)
        · have same := (only.alike m eq).trans (alikeZ m)
          refine Or.inr ⟨m, (others m eq).mpr hc, ?_⟩
          rw [← same.state, ← same.confidence]
          exact hm
      · refine Or.inr ⟨l, ⟨held, differs⟩, ?_⟩
        rw [← (alikeZ l).state, ← (alikeZ l).confidence]
        exact path.moves.mpr (Or.inr k)
    · rintro (k | ⟨m, hc, hm⟩)
      · exact Or.inl (Or.inl k)
      · by_cases eq : m = l
        · subst eq
          rw [← (alikeZ m).state, ← (alikeZ m).confidence] at hm
          rcases path.moves.mp hm with k | k
          · by_cases d : (s.lane m).Alike (x.lane m)
            · rw [d.state, d.confidence] at k
              rcases k with k | k <;> exact absurd Iff.rfl k
            · exact Or.inl (Or.inr ⟨m, ⟨held, laneDiffers_iff.mpr d⟩, k⟩)
          · exact Or.inr k
        · have same := (only.alike m eq).trans (alikeZ m)
          rw [← same.state, ← same.confidence] at hm
          exact Or.inl (Or.inr ⟨m, (others m eq).mp hc, hm⟩)
  refine ⟨after, hz.trans ha, ?_, ?_, ?_, fun none => absurd ⟨held, differs⟩ (none l), fun m _ => ?_, fun m hc hm exception => ?_⟩
  · rw [hr]
    exact h.key
  · rw [hr]
    exact h.mask
  · rw [hr]
    exact flag
  · have figures : after.record = (done.flagged (done.record.membershipChanged || moves)).record.evaluated
        (z.holders gr.record.key gr.record.mask) := by
      rw [hr, ← holders, ← h.key, ← h.mask]
      rfl
    rw [figures]
    exact ⟨rfl, rfl, rfl, rfl⟩
  · have eq : m = l := by
      by_contra ne
      exact hm l (Ne.symm ne) ⟨held, differs⟩
    subst eq
    have first : (s.lane m).Alike (x.lane m) := path.resolve_right fun ⟨hf, _, hi⟩ => by
      rcases exception with k | k
      · exact k hf
      · exact k ((alikeZ m).state.symm.trans hi)
    have done_eq : done = gr := h.stays fun k hk => by
      by_cases eq : k = m
      · subst eq
        exact laneDiffers_iff.mp hk.2 first
      · exact hm k eq ((others k eq).mpr hk)
    subst done_eq
    refine ⟨_, flag, w, wg, wagrees.now.trans (agrees.now.trans (only.sees.now.trans now)), wagrees.peers, wagrees.phase, wagrees.config,
      wagrees.number, fun k _ => ?_, ha⟩
    exact ⟨wagrees.laneState k, congrArg Counter.count (wagrees.counter k), congrArg Counter.confidence (wagrees.counter k)⟩

/-- A change of lane `l` that is handed on after all the changes before it. -/
theorem Handed.settled {e : Nat} {s x y : State} {l : LaneNo} (h : Handed e s x) (only : y.OnlyLane l x)
    (path : ¬ (x.lane l).Alike (y.lane l) → LaneGoesOn (s.lane l) (x.lane l) (y.lane l)) (force : Bool) :
    Handed e s (laneSettled force l (x.lane l) y) := by
  obtain ⟨keeps, comes⟩ := laneSettled_reports force l (x.lane l) y
  by_cases same : (x.lane l).Alike (y.lane l)
  · have agrees := laneSettled_alike (force := force) same
    have settled : (laneSettled force l (x.lane l) y).Quiet y := ⟨agrees.lanes.sees, agrees.groups, agrees.aisle.alike, keeps.2⟩
    exact h.quiet (settled.trans (only.quiet same))
  · have agrees := laneSettled_agrees force l (x.lane l) y
    have sees := agrees.lanes.sees
    refine ⟨sees.now.trans (only.sees.now.trans h.now), sees.config.trans (only.sees.config.trans h.config), fun m hd => ?_, fun g gr hg => ?_⟩
    · by_cases eq : m = l
      · rw [eq]
        exact comes (Or.inr same)
      · refine keeps.2 m (only.reports m eq (h.reports m (laneDiffers_iff.mpr fun k => laneDiffers_iff.mp hd ?_)))
        exact k.trans ((only.alike m eq).trans (agrees.alike m))
    · obtain ⟨done, hx, follows⟩ := h.groups g gr hg
      obtain ⟨u, hu, ug, hz⟩ := laneSettled_group (force := force) same g
      by_cases held : gr.heldBy s l
      · exact follows.evaluated hx h.config h.now only agrees (path same) same held hu ug hz
      · have there : u.group g = some done := ug.trans ((congrArg (Four.get · g) only.groups).trans hx)
        have other : ¬ (y.laneSettings l).article &&& done.record.mask = done.record.key := by
          rw [follows.key, follows.mask, laneSettings_of_config (only.sees.config.trans h.config)]
          exact held
        rw [groupTakesLane_other there other] at hz
        refine ⟨done, hz.trans there, follows.congr h.config (sees.trans only.sees) fun m hm => ?_⟩
        have ne : m ≠ l := fun eq => held (eq ▸ hm)
        exact (only.alike m ne).trans (agrees.alike m)

/-- A change of a lane by `f`, which leaves the report-due flag, handed on (R49, R61). -/
theorem Handed.changed {e : Nat} {s x : State} {l : LaneNo} {f : Lane → Lane} (h : Handed e s x)
    (hf : (f (x.lane l)).service.reportDue = (x.lane l).service.reportDue)
    (path : LaneGoesOn (s.lane l) (x.lane l) (f (x.lane l))) : Handed e s (changeLane l f x) := by
  refine h.settled (updateLane_onlyLane x hf) (fun _ => ?_) false
  rw [updateLane_lane, if_pos rfl]
  exact path

end Sys2Proof.Machine
end


section
/-! PROOF. Presses, the hold limit and the end of a brown-out. -/

namespace Sys2Proof.Machine

/-! ## One lane changed, and the others as they were -/

theorem changeLane_self (l : LaneNo) (f : Lane → Lane) (s : State) :
    ((changeLane l f s).lane l).laneView = (f (s.lane l)).laneView := by
  rw [(changeLane_agrees l f s).lane l, updateLane_lane, if_pos rfl]

theorem changeLane_ne {l m : LaneNo} (h : m ≠ l) (f : Lane → Lane) (s : State) :
    ((changeLane l f s).lane m).laneView = (s.lane m).laneView := by
  rw [(changeLane_agrees l f s).lane m, updateLane_lane, if_neg h]

section
variable {a b : Lane} (h : a.laneView = b.laneView)
include h

theorem laneView_weighing : a.weighing = b.weighing :=
  show a.laneView.weighing = b.laneView.weighing from congrArg Lane.weighing h

theorem laneView_counter : a.counter = b.counter :=
  show a.laneView.counter = b.laneView.counter from congrArg Lane.counter h

/-- What the report-due flag leaves of a service record. -/
theorem laneView_service {β : Type} (view : Service → β) (hv : ∀ sv, view { sv with reportDue := false } = view sv) :
    view a.service = view b.service :=
  (hv _).symm.trans ((congrArg (fun v : Lane => view v.service) h).trans (hv _))

theorem laneView_state : a.service.state = b.service.state :=
  show a.laneView.service.state = b.laneView.service.state from congrArg (fun v : Lane => v.service.state) h

theorem laneView_alike : a.Alike b := by
  refine ⟨laneView_state h, ?_, ?_⟩ <;> rw [laneView_counter h]

end

/-! ## Steps that hand nothing on -/

theorem keepUp_quiet (x : State) : (keepUp x).Quiet x :=
  ⟨⟨rfl, rfl, rfl, rfl, rfl⟩, rfl, fun l => .refl (x.lane l), fun _ h => h.keepUp⟩

theorem spend_quiet (x : State) : x.spend.Quiet x := ⟨⟨rfl, rfl, rfl, rfl, rfl⟩, rfl, fun l => .refl (x.lane l), fun _ h => h⟩

theorem updateService_quiet {l : LaneNo} {f : Service → Service} {x : State} (hs : (f (x.lane l).service).state = (x.lane l).service.state)
    (hd : (f (x.lane l).service).reportDue = (x.lane l).service.reportDue) : (x.updateService l f).Quiet x := by
  refine (updateLane_onlyLane x hd).quiet ?_
  rw [updateLane_lane, if_pos rfl]
  exact ⟨hs.symm, rfl, rfl⟩

theorem refusePress_quiet (l : LaneNo) (x : State) : (refusePress l x).Quiet x := updateService_quiet rfl rfl

theorem Handed.passed (e : Nat) (s : State) : Handed e s (passTime e s) :=
  .start rfl rfl (fun l => .refl (s.lane l)) rfl

/-! ## The hold limit (R58, R59) -/

/-- Settles O42, by the one change of the lane. -/
theorem holdLimitEndsTheHold : Obligations.HoldLimitEndsTheHold := by
  intro e l s awake hs hd
  let w := passTime e s
  let f := Lane.enterResuming (at' e s)
  have self : ((changeLane l f w).lane l).laneView = (f (s.lane l)).laneView := changeLane_self l f w
  have other (m : LaneNo) (h : m ≠ l) : ((changeLane l f w).lane m).laneView = (s.lane m).laneView := changeLane_ne h f w
  have agrees := changeLane_agrees l f w
  have handed : Handed e s (changeLane l f w) := (Handed.passed e s).changed rfl (Or.inl (.refl (s.lane l)))
  refine ⟨_, exec_timed rfl awake (if_pos ⟨hs, hd⟩), laneView_state self, ?_, ?_, laneView_weighing self,
    (laneView_counter self).trans rfl, fun m h => ⟨laneView_counter (other m h), laneView_weighing (other m h), laneView_state (other m h)⟩,
    (handed.quiet (keepUp_quiet _)).handOn, agrees.engine, agrees.shock, agrees.peers⟩
  · exact laneView_service self Service.holdTimer fun _ => rfl
  · exact (laneView_service self Service.holdBeatOrigin fun _ => rfl).trans (if_pos hs)

/-! ## Presses (R63 to R66) -/

section
variable {l : LaneNo} {s : State}

theorem shortPress_off (h : (s.lane l).service.state = .off) : shortPress l s = s := by
  unfold shortPress
  rw [h]

theorem shortPress_holds (h : (s.lane l).service.state = .inService) (hb : s.inBrownOut = false) :
    shortPress l s = changeLane l (Lane.enterHeld s.now s.settings.holdLimitMin) s := by
  unfold shortPress
  rw [h]
  exact if_neg (by rw [hb]; exact Bool.false_ne_true)

theorem shortPress_resumes (h : (s.lane l).service.state = .held) (hb : s.inBrownOut = false) :
    shortPress l s = changeLane l (Lane.enterResuming s.now) s := by
  unfold shortPress
  rw [h]
  exact if_neg (by rw [hb]; exact Bool.false_ne_true)

theorem shortPress_refused (h0 : (s.lane l).service.state ≠ .off)
    (h : (s.lane l).service.state ≠ .inService ∧ (s.lane l).service.state ≠ .held ∨ s.inBrownOut = true) :
    shortPress l s = refusePress l s := by
  unfold shortPress
  split
  · next k => exact absurd k h0
  · next k =>
    rcases h with h | h
    · exact absurd k h.1
    · exact if_pos h
  · next k =>
    rcases h with h | h
    · exact absurd k h.2
    · exact if_pos h
  all_goals rfl

theorem shortPress_cases : shortPress l s = s ∨ shortPress l s = refusePress l s
    ∨ shortPress l s = changeLane l (Lane.enterHeld s.now s.settings.holdLimitMin) s
    ∨ shortPress l s = changeLane l (Lane.enterResuming s.now) s := by
  by_cases h0 : (s.lane l).service.state = .off
  · exact Or.inl (shortPress_off h0)
  · rcases Bool.eq_false_or_eq_true s.inBrownOut with hb | hb
    · exact Or.inr (Or.inl (shortPress_refused h0 (Or.inr hb)))
    · by_cases h1 : (s.lane l).service.state = .inService
      · exact Or.inr (Or.inr (Or.inl (shortPress_holds h1 hb)))
      · by_cases h2 : (s.lane l).service.state = .held
        · exact Or.inr (Or.inr (Or.inr (shortPress_resumes h2 hb)))
        · exact Or.inr (Or.inl (shortPress_refused h0 (Or.inl ⟨h1, h2⟩)))

/-- A short press leaves the button, the press and the counter of the lane. -/
theorem shortPress_keeps : ((shortPress l s).lane l).service.button = (s.lane l).service.button
    ∧ ((shortPress l s).lane l).service.press = (s.lane l).service.press ∧ ((shortPress l s).lane l).counter = (s.lane l).counter := by
  have changed {f : Lane → Lane} (hb : (f (s.lane l)).service.button = (s.lane l).service.button)
      (hp : (f (s.lane l)).service.press = (s.lane l).service.press) (hc : (f (s.lane l)).counter = (s.lane l).counter) :
      ((changeLane l f s).lane l).service.button = (s.lane l).service.button
        ∧ ((changeLane l f s).lane l).service.press = (s.lane l).service.press ∧ ((changeLane l f s).lane l).counter = (s.lane l).counter :=
    have self := changeLane_self l f s
    ⟨(laneView_service self Service.button fun _ => rfl).trans hb, (laneView_service self Service.press fun _ => rfl).trans hp,
      (laneView_counter self).trans hc⟩
  rcases shortPress_cases (l := l) (s := s) with h | h | h | h <;> rw [h]
  · exact ⟨rfl, rfl, rfl⟩
  · rw [refusePress, updateService_lane_self]
    exact ⟨rfl, rfl, rfl⟩
  · exact changed rfl rfl rfl
  · exact changed rfl rfl rfl

theorem Handed.shortPress {e : Nat} {x : State} (h : Handed e s x) (first : (s.lane l).Alike (x.lane l)) :
    Handed e s (Machine.shortPress l x) := by
  rcases shortPress_cases (l := l) (s := x) with k | k | k | k <;> rw [k]
  · exact h
  · exact h.quiet (refusePress_quiet l x)
  · exact h.changed rfl (Or.inl first)
  · exact h.changed rfl (Or.inl first)

end

/-- The state in which a release has been debounced, before a short press is taken (R62, R63). -/
def released (l : LaneNo) (s : State) : State :=
  s.updateService l fun sv => { sv with button := .inactive, debounce := none, press := .none }

theorem releaseTaken_running {l : LaneNo} {s : State} {since : Time} (h : (s.lane l).service.press = .running since) :
    releaseTaken l s = shortPress l (released l s) := by
  unfold releaseTaken
  rw [h]
  rfl

theorem releaseTaken_other {l : LaneNo} {s : State} (h : (s.lane l).service.press = .spent ∨ (s.lane l).service.press = .none) :
    releaseTaken l s = released l s := by
  unfold releaseTaken
  rcases h with h | h <;> rw [h] <;> rfl

theorem released_lane (l : LaneNo) (s : State) : (released l s).lane l
    = { s.lane l with service := { (s.lane l).service with button := .inactive, debounce := none, press := .none } } :=
  updateService_lane_self l _ s

theorem exec_release {e : Nat} {l : LaneNo} {s : State} (awake : Awake s) (hd : due (s.lane l).service.debounce (at' e s) = true)
    (input : (s.lane l).service.buttonInput ≠ s.settings.buttonActiveHigh.get l) (button : (s.lane l).service.button = .active) :
    exec (.release e l) s = .next (keepUp (releaseTaken l (passTime e s))) := by
  refine exec_timed rfl awake (if_pos ?_)
  have asks : (passTime e s).buttonAsks l = .inactive := by
    rw [passTime_buttonAsks, State.buttonAsks, State.buttonActive]
    exact if_neg fun k => input (beq_iff_eq.mp k)
  unfold debounced
  rw [asks, passTime_lane, passTime_now, button]
  simp only [decide_true, Bool.and_true, ne_eq, reduceCtorEq, not_false_eq_true]
  exact hd

/-- Settles O40, by the press and by the lane's state under it. -/
theorem releaseTakesAShortPress : Obligations.ReleaseTakesAShortPress := by
  intro e l s awake hd input button sv
  let w := passTime e s
  let x := released l w
  have lane : x.lane l = { s.lane l with service := { sv with button := .inactive, debounce := none, press := .none } } := released_lane l w
  have start : Handed e s x := (Handed.passed e s).quiet (updateService_quiet rfl rfl)
  have first : (s.lane l).Alike (x.lane l) := by rw [lane]; exact ⟨rfl, rfl, rfl⟩
  have outcome : (∃ since, sv.press = .running since ∧ releaseTaken l w = shortPress l x)
      ∨ (sv.press = .spent ∨ sv.press = .none) ∧ releaseTaken l w = x := by
    cases hp : sv.press with
    | running since => exact Or.inl ⟨since, rfl, releaseTaken_running (s := w) hp⟩
    | spent => exact Or.inr ⟨Or.inl rfl, releaseTaken_other (s := w) (Or.inl hp)⟩
    | none => exact Or.inr ⟨Or.inr rfl, releaseTaken_other (s := w) (Or.inr hp)⟩
  refine ⟨_, exec_release awake hd input button, ?_⟩
  rcases outcome with ⟨since, hp, is⟩ | ⟨hp, is⟩
  · have running {u : Time → Prop} (h : u since) : ∀ t, sv.press = .running t → u t := fun t k => by
      rw [hp] at k
      injection k with k
      exact k ▸ h
    have state : (x.lane l).service.state = sv.state := by rw [lane]
    rw [is]
    obtain ⟨hbutton, hpress, hcounter⟩ := shortPress_keeps (l := l) (s := x)
    rw [lane] at hbutton hpress hcounter
    refine ⟨hbutton, hpress, hcounter, fun k => ?_, fun t _ hs hb => ?_, fun t _ hs hb => ?_, fun t _ h0 h => ?_,
      ((start.shortPress first).quiet (keepUp_quiet _)).handOn⟩
    · rw [hp] at k
      rcases k with k | k <;> cases k
    · rw [shortPress_holds (s := x) (state.trans hs) hb]
      have self := changeLane_self l (Lane.enterHeld x.now x.settings.holdLimitMin) x
      refine ⟨laneView_state self, laneView_service self Service.holdTimer fun _ => rfl,
        laneView_service self Service.holdBeatOrigin fun _ => rfl, (laneView_weighing self).trans ?_⟩
      rw [lane]
      rfl
    · rw [shortPress_resumes (s := x) (state.trans hs) hb]
      have self := changeLane_self l (Lane.enterResuming x.now) x
      refine ⟨laneView_state self, laneView_service self Service.holdTimer fun _ => rfl,
        (laneView_service self Service.holdBeatOrigin fun _ => rfl).trans ((if_pos (state.trans hs)).trans ?_),
        (laneView_weighing self).trans ?_⟩
      · rw [lane]
      · rw [lane]
        rfl
    · rw [shortPress_refused (s := x) (by rw [state]; exact h0) (by rw [state]; exact h)]
      have flash : (refusePress l x).lane l = { x.lane l with service := { (x.lane l).service with flash := true, refuseOrigin := x.now } } :=
        updateService_lane_self l _ x
      rw [keepUp_lane, flash]
      exact ⟨state, rfl, rfl⟩
  · have never {t : Time} (k : sv.press = .running t) : False := by
      rw [k] at hp
      rcases hp with hp | hp <;> cases hp
    rw [is, keepUp_lane, lane]
    exact ⟨rfl, rfl, rfl, fun _ => ⟨rfl, rfl⟩, fun t k => (never k).elim, fun t k => (never k).elim, fun t k => (never k).elim,
      (start.quiet (keepUp_quiet _)).handOn⟩

/-! ## The long press (R65, R50) -/

section
variable {l : LaneNo} {s : State}

theorem longPressTaken_off (h : (s.lane l).service.state = .off) : longPressTaken l s = s := by
  unfold longPressTaken
  rw [h]

theorem longPressTaken_reZeroes {offset : Int} (h : (s.lane l).service.state = .inService) (hb : s.inBrownOut = false)
    (allowed : reZeroAllowed (s.laneSettings l) (s.lane l) = some offset) : longPressTaken l s = reZero l offset s := by
  unfold longPressTaken
  rw [h]
  refine (if_neg (by rw [hb]; exact Bool.false_ne_true)).trans ?_
  rw [allowed]

theorem longPressTaken_refused (h0 : (s.lane l).service.state ≠ .off)
    (h : (s.lane l).service.state ≠ .inService ∨ s.inBrownOut = true ∨ reZeroAllowed (s.laneSettings l) (s.lane l) = none) :
    longPressTaken l s = refusePress l s := by
  unfold longPressTaken
  split
  · next k => exact absurd k h0
  · next k =>
    rcases h with h | h | h
    · exact absurd k h
    · exact if_pos h
    · split
      · rfl
      · rw [h]
  all_goals rfl

theorem longPressTaken_cases : longPressTaken l s = s ∨ longPressTaken l s = refusePress l s
    ∨ ∃ offset, longPressTaken l s = reZero l offset s := by
  by_cases h0 : (s.lane l).service.state = .off
  · exact Or.inl (longPressTaken_off h0)
  · by_cases h : (s.lane l).service.state ≠ .inService ∨ s.inBrownOut = true ∨ reZeroAllowed (s.laneSettings l) (s.lane l) = none
    · exact Or.inr (Or.inl (longPressTaken_refused h0 h))
    · simp only [not_or, not_not, Bool.not_eq_true, ← ne_eq, Option.ne_none_iff_exists'] at h
      obtain ⟨hs, hb, offset, allowed⟩ := h
      exact Or.inr (Or.inr ⟨offset, longPressTaken_reZeroes hs hb allowed⟩)

theorem reZero_self (offset : Int) (s : State) : ((reZero l offset s).lane l).laneView
    = ({ s.lane l with counter := (s.lane l).counter.reZeroed offset } : Lane).laneView := by
  rw [reZero, (laneSettled_agrees true l _ _).lane l, updateLane_lane, if_pos rfl]

theorem longPressTaken_keeps : ((longPressTaken l s).lane l).service.press = (s.lane l).service.press
    ∧ ((longPressTaken l s).lane l).service.state = (s.lane l).service.state
    ∧ ((longPressTaken l s).lane l).weighing = (s.lane l).weighing := by
  rcases longPressTaken_cases (l := l) (s := s) with h | h | ⟨offset, h⟩ <;> rw [h]
  · exact ⟨rfl, rfl, rfl⟩
  · rw [refusePress, updateService_lane_self]
    exact ⟨rfl, rfl, rfl⟩
  · have self := reZero_self (l := l) offset s
    exact ⟨laneView_service self Service.press fun _ => rfl, (laneView_state self).trans rfl, (laneView_weighing self).trans rfl⟩

theorem Handed.longPressTaken {e : Nat} {x : State} (h : Handed e s x) (first : (s.lane l).Alike (x.lane l)) :
    Handed e s (Machine.longPressTaken l x) := by
  rcases longPressTaken_cases (l := l) (s := x) with k | k | ⟨offset, k⟩ <;> rw [k]
  · exact h
  · exact h.quiet (refusePress_quiet l x)
  · exact h.settled (updateLane_onlyLane x rfl) (fun _ => Or.inl first) true

/-- The re-zero that the settled level allows (R50). -/
theorem reZeroAllowed_some {c : LaneSettings} {lane : Lane} {level : Int} (hs : lane.service.state = .inService)
    (hm : lane.weighing.motion = .settled level) (hz : (level - (c.tare : Int)).natAbs ≤ c.zeroLimit) :
    reZeroAllowed c lane = some (level - (c.tare : Int)) := by
  unfold reZeroAllowed
  rw [hm]
  exact if_pos ⟨hs, hz⟩

theorem reZeroAllowed_none {c : LaneSettings} {lane : Lane}
    (h : ¬ ∃ level, lane.weighing.motion = .settled level ∧ (level - (c.tare : Int)).natAbs ≤ c.zeroLimit) : reZeroAllowed c lane = none := by
  unfold reZeroAllowed
  split
  · next level hm => exact if_neg fun k => h ⟨level, hm, k.2⟩
  · rfl

end

/-- Settles O41, by whether the re-zero is allowed. -/
theorem longPressReZeroesOrIsRefused : Obligations.LongPressReZeroesOrIsRefused := by
  intro e l since s awake hp hd sv tare allowed
  let w := passTime e s
  let x := w.updateService l fun sv => { sv with press := .spent }
  have lane : x.lane l = { s.lane l with service := { sv with press := .spent } } := updateService_lane_self l _ w
  have start : Handed e s x := (Handed.passed e s).quiet (updateService_quiet rfl rfl)
  have first : (s.lane l).Alike (x.lane l) := by rw [lane]; exact ⟨rfl, rfl, rfl⟩
  have runs : exec (.longPress e l) s = .next (keepUp (longPressTaken l x)) := by
    refine exec_timed rfl awake (if_pos ?_)
    rw [passTime_lane, hp]
    exact hd
  have settings : x.laneSettings l = s.laneSettings l := rfl
  obtain ⟨press, state, weighing⟩ := longPressTaken_keeps (l := l) (s := x)
  rw [lane] at press state weighing
  refine ⟨_, runs, press, state, weighing, fun level hs hb hm hz => ?_, fun h0 h => ?_,
    ((start.longPressTaken first).quiet (keepUp_quiet _)).handOn⟩
  · have grants : reZeroAllowed (x.laneSettings l) (x.lane l) = some (level - tare) := by
      rw [lane]
      exact reZeroAllowed_some hs hm hz
    have is : longPressTaken l x = reZero l (level - tare) x := longPressTaken_reZeroes (by rw [lane]; exact hs) hb grants
    have self := reZero_self (l := l) (level - tare) x
    rw [is, keepUp_lane]
    refine ⟨(laneView_counter self).trans ?_, ?_⟩
    · rw [lane]
      rfl
    · have comes : ReportComes (reZero l (level - tare) x) l := (laneSettled_reports true l _ _).2 (Or.inl rfl)
      refine comes.keepUp.reported ((laneView_state self).trans ?_)
      rw [lane]
  · have refused : longPressTaken l x = refusePress l x := by
      refine longPressTaken_refused (by rw [lane]; exact h0) ?_
      rcases h with h | h | h
      · exact Or.inl (by rw [lane]; exact h)
      · exact Or.inr (Or.inl h)
      · exact Or.inr (Or.inr (reZeroAllowed_none (by rw [lane]; exact h)))
    have flash : (refusePress l x).lane l = { x.lane l with service := { (x.lane l).service with flash := true, refuseOrigin := x.now } } :=
      updateService_lane_self l _ x
    rw [refused, keepUp_lane, flash, lane]
    exact ⟨rfl, rfl, rfl⟩

/-! ## Every lane in turn -/

/-- An event of several items, each once, where each has its turn in a state that no turn before it has touched for it. -/
theorem foldl_turns {α σ : Type} {P : σ → Prop} {Q : α → σ → Prop} {f : σ → α → σ} (step : ∀ a s, P s → Q a s → P (f s a))
    (others : ∀ a b s, b ≠ a → P s → Q a s → Q b s → Q b (f s a)) {l : List α} (hl : l.Nodup) {s : σ} (h : P s)
    (hq : ∀ a ∈ l, Q a s) : P (l.foldl f s) := by
  induction l generalizing s with
  | nil => exact h
  | cons a l ih =>
    obtain ⟨ha, hl⟩ := List.nodup_cons.mp hl
    have first := hq a List.mem_cons_self
    exact ih hl (step a s h first) fun b hb =>
      others a b s (fun e => ha (e ▸ hb)) h first (hq b (List.mem_cons_of_mem a hb))

theorem eachLane_turns {P : State → Prop} {Q : LaneNo → State → Prop} {f : LaneNo → State → State}
    (step : ∀ l s, P s → Q l s → P (f l s)) (others : ∀ l m s, m ≠ l → P s → Q l s → Q m s → Q m (f l s)) {s : State}
    (h : P s.spend) (hq : ∀ l, Q l s.spend) : P (eachLane f s) :=
  foldl_turns step others ((arrange_perm _ allLanes).nodup_iff.mpr allLanes_nodup) h fun l _ => hq l

/-! ## The end of a brown-out (R60, R177) -/

theorem laneBrownOutEnd_resumes {l : LaneNo} {s : State} (h : (s.lane l).service.state = .inService ∨ (s.lane l).service.state = .held) :
    laneBrownOutEnd l s = changeLane l (Lane.enterResuming s.now) s := by
  unfold laneBrownOutEnd
  rcases h with h | h <;> rw [h]

theorem laneBrownOutEnd_other {l : LaneNo} {s : State}
    (h : ¬ ((s.lane l).service.state = .inService ∨ (s.lane l).service.state = .held)) : laneBrownOutEnd l s = s := by
  unfold laneBrownOutEnd
  split
  · next k => exact absurd (Or.inl k) h
  · next k => exact absurd (Or.inr k) h
  all_goals rfl

/-- Lane `l` as an event of the other lanes leaves it. -/
structure State.LaneKept (l : LaneNo) (t s : State) : Prop where
  lane : (t.lane l).laneView = (s.lane l).laneView
  agrees : t.AgreesButLanes s

namespace State.LaneKept

variable {l : LaneNo}

theorem refl (s : State) : State.LaneKept l s s := ⟨rfl, .refl s⟩

theorem trans {u t s : State} (h : State.LaneKept l u t) (k : State.LaneKept l t s) : State.LaneKept l u s :=
  ⟨h.lane.trans k.lane, h.agrees.trans k.agrees⟩

end State.LaneKept

theorem laneBrownOutEnd_kept {l m : LaneNo} (h : m ≠ l) (s : State) : State.LaneKept l (laneBrownOutEnd m s) s := by
  refine ⟨?_, laneBrownOutEnd_agreesLanes m s⟩
  by_cases k : (s.lane m).service.state = .inService ∨ (s.lane m).service.state = .held
  · rw [laneBrownOutEnd_resumes k]
    exact changeLane_ne (Ne.symm h) _ s
  · rw [laneBrownOutEnd_other k]

theorem Handed.brownOutEnd {e : Nat} {s x : State} (h : Handed e s x) (untouched : ∀ l, (s.lane l).Alike (x.lane l)) :
    Handed e s (eachLane laneBrownOutEnd x) := by
  refine eachLane_turns (P := Handed e s) (Q := fun l y => (s.lane l).Alike (y.lane l)) (fun l y hy first => ?_)
    (fun l m y ne _ _ k => k.trans (laneView_alike (laneBrownOutEnd_kept (Ne.symm ne) y).lane).symm) (h.quiet (spend_quiet x)) untouched
  by_cases k : (y.lane l).service.state = .inService ∨ (y.lane l).service.state = .held
  · rw [laneBrownOutEnd_resumes k]
    exact hy.changed rfl (Or.inl first)
  · rw [laneBrownOutEnd_other k]
    exact hy

/-- What the end of a brown-out leaves of a lane's service record and weighing record (R60). -/
theorem brownOutEnd_lane (l : LaneNo) (x : State) :
    ((eachLane laneBrownOutEnd x).lane l).laneView
      = (if (x.lane l).service.state = .inService ∨ (x.lane l).service.state = .held then (x.lane l).enterResuming x.now
        else x.lane l : Lane).laneView := by
  obtain ⟨u, hu, hf⟩ := eachLane_passes (R := State.LaneKept l) .refl State.LaneKept.trans (fun s => ⟨rfl, rfl⟩) (f := laneBrownOutEnd)
    (fun s m hm => laneBrownOutEnd_kept hm s) x
  have same := laneView_state hu.lane
  rw [hf.lane]
  by_cases k : (x.lane l).service.state = .inService ∨ (x.lane l).service.state = .held
  · rw [if_pos k, laneBrownOutEnd_resumes (same ▸ k), changeLane_self, hu.agrees.now]
    have weighing := laneView_weighing hu.lane
    have counter := laneView_counter hu.lane
    have service : ({ (u.lane l).service with reportDue := false } : Service) = { (x.lane l).service with reportDue := false } :=
      congrArg Lane.service hu.lane
    have view (a : Lane) : (a.enterResuming x.now).laneView
        = ({ a with service := { a.service with reportDue := false } } : Lane).enterResuming x.now := rfl
    rw [view, view, weighing, counter, service]
  · rw [if_neg k, laneBrownOutEnd_other (same ▸ k)]
    exact hu.lane

/-- The state in which the brown-out has ended and the phase goes on. -/
def brownOutOver (s : State) : State := s.updateStation fun st => { st with brownOut := .none }

/-- Settles O18, by the phase; each lane has its turn once. -/
theorem brownOutEndContinuesThePhase : Obligations.BrownOutEndContinuesThePhase := by
  intro e d s awake
  refine ⟨fun low => ?_, fun ends high hd => ?_⟩
  · change Host.Outcome.next (if s.station.phase = .reset then setSupply true s else timed e supplyRises s) = _
    rw [if_neg awake, timed_awake awake]
    have low' : (passTime e s).station.brownOut = .low := low
    unfold supplyRises State.updateStation
    simp only [low']
    rfl
  · let x := brownOutOver (passTime e s)
    have runs : exec (.brownOutEnd e d) s = .next (keepUp (brownOutEnds d (passTime e s))) := by
      refine exec_timed rfl awake (if_pos ?_)
      have high' : (passTime e s).station.brownOut = .high ends := high
      unfold StationControl.supplyHeld
      rw [high']
      exact hd
    have start : Handed e s x := .start rfl rfl (fun l => .refl (s.lane l)) rfl
    have phase : x.station.phase = s.station.phase := rfl
    have unfolds : brownOutEnds d (passTime e s) = (match s.station.phase with
      | .warmUp => startWarmUp x
      | .loading => beginAttempt d x
      | .joining => eachLane laneBrownOutEnd x
      | .running => eachLane laneBrownOutEnd x
      | .configFault => x
      | .reset => x) := by
      unfold brownOutEnds
      dsimp only
      rw [show ((passTime e s).updateStation fun st => { st with brownOut := .none }).station.phase = s.station.phase from rfl]
      rfl
    have quiet {y : State} (sees : y.SeesAs x) (lanes : y.lanes = x.lanes) (groups : y.groups = x.groups) :
        LanesHandOn e s (keepUp y) :=
      ((Handed.start (sees.now.trans start.now) (sees.config.trans start.config)
        (fun l => .of_eq (congrArg (Four.get · l) lanes).symm) groups).quiet (keepUp_quiet y)).handOn
    have lanes {t : State} (h : t = eachLane laneBrownOutEnd x) : ∀ l,
        let before := (s.lane l).service
        let after := ((keepUp t).lane l).service
        let resumes : Prop := before.state = .inService ∨ before.state = .held
        (resumes → after.state = .resuming
          ∧ ((keepUp t).lane l).weighing = { (s.lane l).weighing with motion := .moving, filter := [], window := [] })
        ∧ (¬ resumes → after.state = before.state ∧ ((keepUp t).lane l).weighing = (s.lane l).weighing)
        ∧ after.holdTimer = (if resumes then none else before.holdTimer)
        ∧ after.holdBeatOrigin = (if before.state = .inService then at' e s else before.holdBeatOrigin)
        ∧ ((keepUp t).lane l).counter = (s.lane l).counter := by
      intro l before after resumes
      have view := brownOutEnd_lane l x
      rw [← h] at view
      by_cases k : resumes
      · have view := view.trans (congrArg Lane.laneView (if_pos k))
        refine ⟨fun _ => ⟨laneView_state view, laneView_weighing view⟩, fun n => absurd k n,
          (laneView_service view Service.holdTimer fun _ => rfl).trans (if_pos k).symm,
          (laneView_service view Service.holdBeatOrigin fun _ => rfl).trans ?_, (laneView_counter view).trans rfl⟩
        rcases k with k | k
        · refine Eq.trans ?_ (if_pos k).symm
          exact if_neg fun (held : (s.lane l).service.state = .held) => by rw [k] at held; cases held
        · refine Eq.trans ?_ (if_neg fun i => by rw [k] at i; cases i).symm
          exact if_pos k
      · have view := view.trans (congrArg Lane.laneView (if_neg k))
        exact ⟨fun n => absurd n k, fun _ => ⟨laneView_state view, laneView_weighing view⟩,
          (laneView_service view Service.holdTimer fun _ => rfl).trans (if_neg k).symm,
          (laneView_service view Service.holdBeatOrigin fun _ => rfl).trans (if_neg fun i => k (Or.inl i)).symm, laneView_counter view⟩
    have ends : LanesHandOn e s (keepUp (eachLane laneBrownOutEnd x)) :=
      ((start.brownOutEnd fun l => .refl (s.lane l)).quiet (keepUp_quiet _)).handOn
    have agrees : (eachLane laneBrownOutEnd x).AgreesButLanes x := eachLane_agreesLanes laneBrownOutEnd_agreesLanes x
    refine ⟨_, runs, ?_⟩
    rw [unfolds]
    cases hp : s.station.phase with
    | reset => exact absurd hp awake
    | configFault =>
      exact ⟨rfl, hp, fun k => (nomatch k), fun k => (nomatch k), fun k => k.elim (fun k => nomatch k) (fun k => nomatch k),
        quiet (.refl x) rfl rfl⟩
    | warmUp =>
      exact ⟨rfl, hp, fun _ => rfl, fun k => (nomatch k), fun k => k.elim (fun k => nomatch k) (fun k => nomatch k),
        quiet ⟨rfl, rfl, rfl, rfl, rfl⟩ rfl rfl⟩
    | loading =>
      exact ⟨rfl, hp, fun k => (nomatch k), fun _ => ⟨rfl, rfl, rfl⟩, fun k => k.elim (fun k => nomatch k) (fun k => nomatch k),
        quiet ⟨rfl, rfl, rfl, rfl, rfl⟩ rfl rfl⟩
    | joining =>
      exact ⟨agrees.brownOut, agrees.phase.trans hp, fun k => (nomatch k), fun k => (nomatch k), fun _ => lanes rfl, ends⟩
    | running =>
      exact ⟨agrees.brownOut, agrees.phase.trans hp, fun k => (nomatch k), fun k => (nomatch k), fun _ => lanes rfl, ends⟩

end Sys2Proof.Machine
end


section
/-! PROOF. A converter transaction that ends, with the channel's report to its lanes. -/

namespace Sys2Proof.Machine

/-! ## What the lanes' events leave of the other blocks -/

/-- What an event of the lanes leaves: the blocks that no lane feeds, the counters apart from the queue's own, the seed, and the shock
monitor. -/
structure State.LanesTold (t s : State) : Prop where
  agrees : t.AgreesButLanes s
  counters : apartFromQueue t.station.counters = apartFromQueue s.station.counters
  seed : t.station.seed = s.station.seed
  notes : t.station.notes = s.station.notes
  shock : t.shock = s.shock

namespace State.LanesTold

variable {s t u : State}

theorem refl (s : State) : s.LanesTold s := ⟨.refl s, rfl, rfl, rfl, rfl⟩

theorem trans (h : u.LanesTold t) (k : t.LanesTold s) : u.LanesTold s :=
  ⟨h.agrees.trans k.agrees, h.counters.trans k.counters, h.seed.trans k.seed, h.notes.trans k.notes, h.shock.trans k.shock⟩

theorem changeLane (l : LaneNo) (f : Lane → Lane) (s : State) : (changeLane l f s).LanesTold s :=
  have h := changeLane_agrees l f s
  ⟨changeLane_agreesLanes l f s, h.counters, h.seed, h.notes, h.shock⟩

theorem laneFaults (l : LaneNo) (s : State) : (laneFaults l s).LanesTold s := by
  unfold Machine.laneFaults
  split
  · exact .changeLane l _ s
  · exact .refl s

theorem testFault (l : LaneNo) (s : State) : (testFault l s).LanesTold s := by
  unfold Machine.testFault
  split
  · exact .changeLane l _ s
  · exact .refl s

theorem reportChannel (c : ChannelNo) (before after : ChannelState) (s : State) : (reportChannel c before after s).LanesTold s := by
  unfold Machine.reportChannel
  split
  · exact foldl_relates State.LanesTold .refl (fun h k => .trans h k) _ (fun s l => .laneFaults l s) _ _
  · split
    · exact foldl_relates State.LanesTold .refl (fun h k => .trans h k) _ (fun s l => .testFault l s) _ _
    · exact .refl s

end State.LanesTold

/-! ## A lane at the report of a channel (R10, R56, R57) -/

theorem faults_iff (st : LaneState) : st.faults = true ↔ st ≠ .off ∧ st ≠ .fault := by
  cases st <;> decide

theorem enterFault_laneView (now : Time) (a : Lane) : (a.enterFault now).laneView = a.laneView.enterFault now := rfl

theorem enterResuming_laneView (now : Time) (a : Lane) : (a.enterResuming now).laneView = a.laneView.enterResuming now := rfl

theorem channelsOk_iff (s : State) (l : LaneNo) :
    s.channelsOk l = true ↔ ∀ c ∈ (s.lane l).weighing.channels, (s.engine.channels.get c).state = .ok := by
  simp only [State.channelsOk, List.all_eq_true, decide_eq_true_eq]

theorem laneFaults_kept {l m : LaneNo} (h : m ≠ l) (s : State) : State.LaneKept l (laneFaults m s) s := by
  refine ⟨?_, laneFaults_agreesLanes m s⟩
  unfold laneFaults
  split
  · exact changeLane_ne (Ne.symm h) _ s
  · rfl

theorem testFault_kept {l m : LaneNo} (h : m ≠ l) (s : State) : State.LaneKept l (testFault m s) s := by
  refine ⟨?_, testFault_agreesLanes m s⟩
  unfold testFault
  split
  · exact changeLane_ne (Ne.symm h) _ s
  · rfl

/-- A lane after the report that one of its channels has entered FAULTED (R56). -/
def Lane.toldFaulted (now : Time) (lane : Lane) : Lane := if lane.service.state.faults then lane.enterFault now else lane

/-- A lane after the test of R57, with the channel records. -/
def Lane.toldOk (now : Time) (channels : Eight Channel) (lane : Lane) : Lane :=
  if lane.service.state = .fault ∧ ∀ c ∈ lane.weighing.channels, (channels.get c).state = .ok then lane.enterResuming now else lane

theorem laneFaults_lane (l : LaneNo) (s : State) : ((laneFaults l s).lane l).laneView = ((s.lane l).toldFaulted s.now).laneView := by
  unfold laneFaults Lane.toldFaulted
  split
  · exact changeLane_self l _ s
  · rfl

theorem testFault_lane (l : LaneNo) (s : State) :
    ((testFault l s).lane l).laneView = ((s.lane l).toldOk s.now s.engine.channels).laneView := by
  unfold testFault Lane.toldOk
  simp only [channelsOk_iff]
  split
  · exact changeLane_self l _ s
  · rfl

theorem toldFaulted_congr {now : Time} {a b : Lane} (h : a.laneView = b.laneView) :
    (a.toldFaulted now).laneView = (b.toldFaulted now).laneView := by
  unfold Lane.toldFaulted
  rw [laneView_state h]
  split
  · rw [enterFault_laneView, h, ← enterFault_laneView]
  · exact h

theorem toldOk_congr {now : Time} {channels : Eight Channel} {a b : Lane} (h : a.laneView = b.laneView) :
    (a.toldOk now channels).laneView = (b.toldOk now channels).laneView := by
  unfold Lane.toldOk
  rw [laneView_state h, laneView_weighing h]
  split
  · rw [enterResuming_laneView, h, ← enterResuming_laneView]
  · exact h

theorem mem_lanesOf {s : State} {c : ChannelNo} {l : LaneNo} : l ∈ s.lanesOf c ↔ c ∈ (s.lane l).weighing.channels := by
  unfold State.lanesOf
  rw [List.mem_filter, List.contains_iff_mem]
  exact and_iff_right (mem_allLanes l)

theorem lanesOf_nodup (s : State) (c : ChannelNo) : (s.lanesOf c).Nodup := allLanes_nodup.filter _

/-- A turn of every lane of a channel, seen from one lane. -/
theorem lanesOf_turns {c : ChannelNo} {f : LaneNo → State → State} {l : LaneNo} (kept : ∀ m s, m ≠ l → State.LaneKept l (f m s) s) (s : State) :
    (c ∈ (s.lane l).weighing.channels → ∃ u, State.LaneKept l u s
      ∧ State.LaneKept l ((s.lanesOf c).foldl (fun t m => f m t) s) (f l u))
    ∧ (c ∉ (s.lane l).weighing.channels → State.LaneKept l ((s.lanesOf c).foldl (fun t m => f m t) s) s) := by
  refine ⟨fun h => ?_, fun h => ?_⟩
  · exact foldl_passes (R := State.LaneKept l) .refl State.LaneKept.trans (fun s m hm => kept m s hm) (lanesOf_nodup s c) (mem_lanesOf.mpr h) s
  · have all : ∀ m ∈ s.lanesOf c, m ≠ l := fun m hm e => h (mem_lanesOf.mp (e ▸ hm))
    generalize s.lanesOf c = lanes at all
    induction lanes generalizing s with
    | nil => exact .refl s
    | cons m lanes ih =>
      have first := kept m s (all m List.mem_cons_self)
      exact (ih (f m s) (by rw [laneView_weighing first.lane]; exact h) fun k hk => all k (List.mem_cons_of_mem m hk)).trans first

/-- A lane after the report of channel `c`, with the channel records after it (R10). -/
def Lane.told (now : Time) (c : ChannelNo) (before after : Eight Channel) (lane : Lane) : Lane :=
  if c ∈ lane.weighing.channels then
    if (before.get c).state ≠ .faulted ∧ (after.get c).state = .faulted then lane.toldFaulted now
    else if (before.get c).state = .faulted ∧ (after.get c).state = .ok then lane.toldOk now after
    else lane
  else lane

theorem changeChannel_lane (c : ChannelNo) (f : Channel → Channel) (s : State) (l : LaneNo) :
    ((changeChannel c f s).lane l).laneView
      = ((s.lane l).told s.now c s.engine.channels (s.engine.channels.set c (f (s.engine.channels.get c)))).laneView := by
  let x := s.updateChannel c f
  have here : (s.engine.channels.set c (f (s.engine.channels.get c))).get c = f (s.engine.channels.get c) := Eight.get_set_same _ _ _
  unfold changeChannel reportChannel Lane.told
  dsimp only
  rw [here]
  by_cases reports : (s.engine.channels.get c).state ≠ .faulted ∧ (f (s.engine.channels.get c)).state = .faulted
  · rw [if_pos reports, if_pos reports]
    obtain ⟨mine, other⟩ := lanesOf_turns (c := c) (f := laneFaults) (l := l) (fun m s h => laneFaults_kept h s) x
    split
    · next h =>
      obtain ⟨u, hu, hf⟩ := mine h
      rw [hf.lane, laneFaults_lane, hu.agrees.now]
      exact toldFaulted_congr hu.lane
    · next h => exact (other h).lane
  · rw [if_neg reports, if_neg reports]
    by_cases recovers : (s.engine.channels.get c).state = .faulted ∧ (f (s.engine.channels.get c)).state = .ok
    · rw [if_pos recovers, if_pos recovers]
      obtain ⟨mine, other⟩ := lanesOf_turns (c := c) (f := testFault) (l := l) (fun m s h => testFault_kept h s) x
      split
      · next h =>
        obtain ⟨u, hu, hf⟩ := mine h
        rw [hf.lane, testFault_lane, hu.agrees.now, hu.agrees.engine]
        exact toldOk_congr hu.lane
      · next h => exact (other h).lane
    · rw [if_neg recovers, if_neg recovers, ite_self]
      rfl

theorem Handed.testFault {e : Nat} {s x : State} {l : LaneNo} (h : Handed e s x) (first : (s.lane l).Alike (x.lane l)) :
    Handed e s (Machine.testFault l x) := by
  unfold Machine.testFault
  split
  · exact h.changed rfl (Or.inl first)
  · exact h

theorem updateChannel_quiet (c : ChannelNo) (f : Channel → Channel) (x : State) : (x.updateChannel c f).Quiet x :=
  ⟨⟨rfl, rfl, rfl, rfl, rfl⟩, rfl, fun l => .refl (x.lane l), fun _ h => h⟩

/-- A channel's report is handed on where no lane of the channel has changed before. -/
theorem Handed.changeChannel {e : Nat} {s x : State} {c : ChannelNo} {f : Channel → Channel} (h : Handed e s x)
    (first : ∀ l, c ∈ (x.lane l).weighing.channels → (x.engine.channels.get c).state ≠ .faulted ∧ (f (x.engine.channels.get c)).state = .faulted
      → (x.lane l).service.state.faults = true → (s.lane l).Alike (x.lane l))
    (again : ∀ l, c ∈ (x.lane l).weighing.channels → (x.engine.channels.get c).state = .faulted ∧ (f (x.engine.channels.get c)).state = .ok
      → (s.lane l).Alike (x.lane l)) :
    Handed e s (Machine.changeChannel c f x) := by
  have start : Handed e s (x.updateChannel c f) := h.quiet (updateChannel_quiet c f x)
  unfold Machine.changeChannel reportChannel
  dsimp only
  split
  · next reports =>
    refine foldl_turns (P := Handed e s) (Q := fun l y => c ∈ (x.lane l).weighing.channels ∧ (y.lane l).laneView = (x.lane l).laneView)
      (fun l y hy hl => ?_) (fun a b y ne _ _ k => ⟨k.1, (laneFaults_kept (Ne.symm ne) y).lane.trans k.2⟩) (lanesOf_nodup _ c) start
      fun l hl => ⟨mem_lanesOf.mp hl, rfl⟩
    unfold Machine.laneFaults
    split
    · next hfaults =>
      have alike := first l hl.1 reports (laneView_state hl.2 ▸ hfaults)
      exact hy.changed rfl (Or.inl (alike.trans (laneView_alike hl.2).symm))
    · exact hy
  · split
    · next recovers =>
      refine foldl_turns (P := Handed e s) (Q := fun l y => c ∈ (x.lane l).weighing.channels ∧ (y.lane l).laneView = (x.lane l).laneView)
        (fun l y hy hl => ?_) (fun a b y ne _ _ k => ⟨k.1, (testFault_kept (Ne.symm ne) y).lane.trans k.2⟩) (lanesOf_nodup _ c) start
        fun l hl => ⟨mem_lanesOf.mp hl, rfl⟩
      exact hy.testFault ((again l hl.1 recovers).trans (laneView_alike hl.2).symm)
    · exact start

/-! ## Records that are not IDLE -/

theorem Channel.fail_idle (c : Channel) : c.fail.state = .idle ↔ c.state = .idle := by
  unfold Channel.fail
  cases h : c.state with
  | idle => exact iff_of_true h rfl
  | ok => simp
  | suspect =>
    dsimp only
    split <;> simp
  | faulted => simp

theorem Channel.good_idle (sample : Sample) (c : Channel) : (c.good sample).state = .idle ↔ c.state = .idle := by
  unfold Channel.good
  cases h : c.state with
  | idle => exact iff_of_true h rfl
  | ok => simp
  | suspect => simp
  | faulted =>
    dsimp only
    split <;> simp

/-- The channels of a round depend on which records are IDLE. -/
theorem channelsFrom_congr {s t : State} {n : Nat}
    (h : ∀ d : ChannelNo, n ≤ d.val → ((t.engine.channels.get d).state = .idle ↔ (s.engine.channels.get d).state = .idle)) :
    t.channelsFrom n = s.channelsFrom n := by
  unfold State.channelsFrom
  refine List.filter_congr fun d _ => ?_
  by_cases hn : n ≤ d.val
  · unfold State.configured
    rw [decide_eq_decide.mpr (not_congr (h d hn))]
  · rw [decide_eq_false hn, Bool.false_and, Bool.false_and]

/-! ## The end of a transaction (R3, R4, R6, R9, R10) -/

/-- What is recorded at the end of a transaction, apart from the channel record: the seed or the count of a failure. -/
structure State.Noted (v s : State) : Prop where
  quiet : v.Quiet s
  engine : v.engine = s.engine
  lanes : v.lanes = s.lanes
  shock : v.shock = s.shock
  line : v.line = s.line

theorem seedFrom_noted (raw : Int) (s : State) : (seedFrom raw s).Noted s := by
  unfold seedFrom
  split
  · exact ⟨.refl s, rfl, rfl, rfl, rfl⟩
  · exact ⟨⟨⟨rfl, rfl, rfl, rfl, rfl⟩, rfl, fun l => .refl (s.lane l), fun _ h => h⟩, rfl, rfl, rfl, rfl⟩

theorem count_noted (name : CounterName) (n : Nat) (s : State) : (s.count name n).Noted s :=
  ⟨⟨⟨rfl, rfl, rfl, rfl, rfl⟩, rfl, fun l => .refl (s.lane l), fun _ h => h⟩, rfl, rfl, rfl, rfl⟩

/-- A transaction's end with the round moving on, in the words of the statement. -/
theorem nextChannel_moves {e : Nat} {dh : Bool} {c next : ChannelNo} {rest : List ChannelNo} {s v : State} {f : Channel → Channel}
    (more : s.channelsFrom (c.val + 1) = next :: rest) (noted : v.Noted (passTime e s)) :
    let t := keepUp (nextChannel c dh (changeChannel c f v))
    let before := s.engine.channels.get c
    let channels := s.engine.channels.set c (f before)
    t.engine = { s.engine with channels := channels, transaction := some ⟨.channel next, checkedStage (at' e s) dh⟩ }
      ∧ t.shock = s.shock ∧ t.peers = s.peers ∧ unmeasured t.line = unmeasured s.line ∧ LanesHandOn e s t
      ∧ (∀ l, (t.lane l).laneView = ((s.lane l).told (at' e s) c s.engine.channels channels).laneView)
      ∧ apartFromQueue t.station.counters = apartFromQueue v.station.counters ∧ t.station.seed = v.station.seed := by
  intro t before channels
  let x := changeChannel c f v
  have told : x.LanesTold (v.updateChannel c f) := State.LanesTold.reportChannel c _ _ _
  have engine : x.engine = { s.engine with channels := channels } := by
    refine told.agrees.engine.trans ?_
    change { v.engine with channels := v.engine.channels.set c (f (v.engine.channels.get c)) } = _
    rw [noted.engine]
    rfl
  have now : x.now = at' e s := told.agrees.now.trans noted.quiet.sees.now
  have goes : nextChannel c dh x = beginTransaction (.channel next) dh x := by
    have same : x.channelsFrom (c.val + 1) = next :: rest := by
      rw [← more]
      refine channelsFrom_congr fun d hd => ?_
      have ne : d ≠ c := fun k => by
        rw [k] at hd
        exact Nat.lt_irrefl _ hd
      rw [engine]
      dsimp only [channels]
      rw [Eight.get_set_other _ _ ne]
    unfold nextChannel
    rw [same]
  have handed : Handed e s x := by
    have start : Handed e s v := (Handed.passed e s).quiet noted.quiet
    have alike (l : LaneNo) : (s.lane l).Alike (v.lane l) := noted.quiet.alike l
    exact start.changeChannel (fun l _ _ _ => alike l) fun l _ _ => alike l
  have begun : (beginTransaction (.channel next) dh x).Quiet x :=
    ⟨⟨rfl, rfl, rfl, rfl, rfl⟩, rfl, fun l => .refl (x.lane l), fun _ h => h⟩
  have is : t = keepUp (beginTransaction (.channel next) dh x) := congrArg keepUp goes
  rw [is]
  refine ⟨?_, told.shock.trans noted.shock, told.agrees.peers.trans noted.quiet.sees.peers, ?_, ?_, fun l => ?_, told.counters, told.seed⟩
  · change { x.engine with transaction := some ⟨.channel next, if dh then .underWay x.now else .recovering x.now⟩ } = _
    rw [engine, now]
    rfl
  · have line : x.line = s.line := told.agrees.line.trans noted.line
    exact show unmeasured x.line = unmeasured s.line from congrArg unmeasured line
  · exact (handed.quiet ((keepUp_quiet _).trans begun)).handOn
  · refine (changeChannel_lane c f v l).trans ?_
    have lane : v.lane l = s.lane l := congrArg (Four.get · l) noted.lanes
    rw [lane, noted.quiet.sees.now, noted.engine]
    rfl

/-- What the report of a channel makes of a lane, by the cases of the statement (R10, R56, R57). -/
theorem told_cases {now : Time} {c : ChannelNo} {channels : Eight Channel} {r : Channel} {lane after : Lane}
    (view : after.laneView = (lane.told now c channels (channels.set c r)).laneView) :
    let mine := c ∈ lane.weighing.channels
    let reports := (channels.get c).state ≠ .faulted ∧ r.state = .faulted
    let recovers := (channels.get c).state = .faulted ∧ r.state = .ok
    (mine → reports → lane.service.state ≠ .off → lane.service.state ≠ .fault →
      after.weighing = { lane.weighing with motion := .moving, window := [], previousGross := none }
        ∧ after.counter = { lane.counter with confidence := .unknown }
        ∧ after.service.state = .fault ∧ after.service.holdTimer = none ∧ after.service.faultBeatOrigin = now)
    ∧ (mine → recovers → lane.service.state = .fault → (∀ d ∈ lane.weighing.channels, ((channels.set c r).get d).state = .ok) →
      after.weighing = { lane.weighing with motion := .moving, filter := [], window := [] }
        ∧ after.counter = lane.counter ∧ after.service.state = .resuming ∧ after.service.holdBeatOrigin = now)
    ∧ (¬ mine ∨ ¬ reports ∧ ¬ recovers
        ∨ reports ∧ (lane.service.state = .off ∨ lane.service.state = .fault)
        ∨ recovers ∧ (lane.service.state ≠ .fault ∨ ∃ d ∈ lane.weighing.channels, ((channels.set c r).get d).state ≠ .ok) →
      after.weighing = lane.weighing ∧ after.counter = lane.counter ∧ after.service.state = lane.service.state) := by
  intro mine reports recovers
  have here : (channels.set c r).get c = r := Eight.get_set_same _ _ _
  unfold Lane.told at view
  rw [here] at view
  refine ⟨fun hm hr h0 h5 => ?_, fun hm hr hs hok => ?_, fun h => ?_⟩
  · rw [if_pos hm, if_pos hr, Lane.toldFaulted, if_pos ((faults_iff _).mpr ⟨h0, h5⟩)] at view
    exact ⟨laneView_weighing view, laneView_counter view, laneView_state view, laneView_service view Service.holdTimer fun _ => rfl,
      laneView_service view Service.faultBeatOrigin fun _ => rfl⟩
  · have no : ¬ reports := fun k => k.1 hr.1
    rw [if_pos hm, if_neg no, if_pos hr, Lane.toldOk, if_pos ⟨hs, hok⟩] at view
    refine ⟨laneView_weighing view, (laneView_counter view).trans rfl, laneView_state view,
      (laneView_service view Service.holdBeatOrigin fun _ => rfl).trans (if_neg fun k => ?_)⟩
    rw [hs] at k
    cases k
  · have same : after.laneView = lane.laneView := by
      rw [view]
      by_cases hm : mine
      · rw [if_pos hm]
        rcases h with h | ⟨hn, hk⟩ | ⟨hr, hs⟩ | ⟨hk, hs⟩
        · exact absurd hm h
        · rw [if_neg hn, if_neg hk]
        · rw [if_pos hr, Lane.toldFaulted, if_neg]
          rw [faults_iff]
          rintro ⟨h0, h5⟩
          exact hs.elim h0 h5
        · rw [if_neg fun k => k.1 hk.1, if_pos hk, Lane.toldOk, if_neg]
          rintro ⟨h5, hall⟩
          rcases hs with hs | ⟨d, hd, hn⟩
          · exact hs h5
          · exact hn (hall d hd)
      · rw [if_neg hm]
    exact ⟨laneView_weighing same, laneView_counter same, laneView_state same⟩

theorem exec_transactionComplete {e : Nat} {dh : Bool} {c : ChannelNo} {since : Time} {result : ConverterEnd} {s : State} (awake : Awake s)
    (ht : s.engine.transaction = some ⟨.channel c, .underWay since⟩) :
    exec (.converterTransactionComplete e result dh) s = .next (keepUp (nextChannel c dh (recordEnd c result (passTime e s)))) := by
  refine exec_timed rfl awake ?_
  rw [passTime_engine, ht]

theorem exec_stretchStop {e : Nat} {dh : Bool} {c : ChannelNo} {failedAt : Time} {s : State} (awake : Awake s)
    (ht : s.engine.transaction = some ⟨.channel c, .stretched failedAt⟩) (hd : (at' e s).notAfter (failedAt.addMs 2) = true) :
    exec (.stretchStop e dh) s = .next (keepUp (nextChannel c dh (recordFailure c (passTime e s)))) := by
  refine exec_timed rfl awake ?_
  rw [passTime_engine, ht]
  exact if_pos hd

theorem recordEnd_good {c : ChannelNo} {status high middle low : Byte} (h : status.getLsbD 7 = true) (s : State) :
    recordEnd c (.bytesRead status high middle low) s
      = changeChannel c (Channel.good ⟨signed24 high middle low, status.getLsbD 6⟩) (seedFrom (signed24 high middle low) s) := if_pos h

theorem recordEnd_failure {c : ChannelNo} {result : ConverterEnd} (h : EndsInFailure result) (s : State) :
    recordEnd c result s = recordFailure c s := by
  obtain rfl | ⟨status, high, middle, low, rfl, ready⟩ := h
  · rfl
  · exact if_neg (by rw [ready]; exact Bool.false_ne_true)

theorem seedFrom_seed (raw : Int) (s : State) : (s.station.seed.sample = none → (seedFrom raw s).station.seed = ⟨s.station.number, some raw⟩)
    ∧ (s.station.seed.sample ≠ none → (seedFrom raw s).station.seed = s.station.seed)
    ∧ (seedFrom raw s).station.counters = s.station.counters := by
  unfold seedFrom
  cases h : s.station.seed.sample with
  | none => exact ⟨fun _ => rfl, fun k => absurd rfl k, rfl⟩
  | some n => exact ⟨fun k => (nomatch k), fun _ => rfl, rfl⟩

theorem sensorFailures_apart {a b : Counters} (h : apartFromQueue a = apartFromQueue b) : a.sensorFailures = b.sensorFailures :=
  show (apartFromQueue a).sensorFailures = (apartFromQueue b).sensorFailures from congrArg Counters.sensorFailures h

/-- Settles O13: one channel record, its report, and the next transaction. -/
theorem transactionEndMovesOn : Obligations.TransactionEndMovesOn := by
  intro e dh c next rest s awake more moved
  have moves {v : State} (f : Channel → Channel) (noted : v.Noted (passTime e s)) :
      moved f (keepUp (nextChannel c dh (changeChannel c f v)))
        ∧ (keepUp (nextChannel c dh (changeChannel c f v))).station.counters.sensorFailures = v.station.counters.sensorFailures
        ∧ (keepUp (nextChannel c dh (changeChannel c f v))).station.seed = v.station.seed := by
    obtain ⟨engine, shock, peers, line, handOn, lanes, counters, seed⟩ := nextChannel_moves (dh := dh) (f := f) more noted
    exact ⟨⟨engine, shock, peers, line, handOn, fun l => told_cases (lanes l)⟩, sensorFailures_apart counters, seed⟩
  have fails : moved Channel.fail (keepUp (nextChannel c dh (recordFailure c (passTime e s))))
      ∧ (keepUp (nextChannel c dh (recordFailure c (passTime e s)))).station.counters.sensorFailures
        = min (s.station.counters.sensorFailures + 1) 65535
      ∧ (keepUp (nextChannel c dh (recordFailure c (passTime e s)))).station.seed = s.station.seed :=
    moves Channel.fail (count_noted .sensorFailures 1 _)
  refine ⟨fun since ht status high middle low ready => ?_, fun since ht result failed => ?_, fun failedAt ht hd => ?_⟩
  · obtain ⟨done, counters, seed⟩ := moves (Channel.good ⟨signed24 high middle low, status.getLsbD 6⟩)
      (seedFrom_noted (signed24 high middle low) (passTime e s))
    obtain ⟨fresh, old, same⟩ := seedFrom_seed (signed24 high middle low) (passTime e s)
    rw [same] at counters
    refine ⟨_, exec_transactionComplete awake ht, ?_⟩
    rw [recordEnd_good ready]
    exact ⟨done, counters, fun h => seed.trans (fresh h), fun h => seed.trans (old h)⟩
  · refine ⟨_, exec_transactionComplete awake ht, ?_⟩
    rw [recordEnd_failure failed]
    exact fails
  · exact ⟨_, exec_stretchStop awake ht hd, fails⟩

end Sys2Proof.Machine
end


section
/-! PROOF. One lane's part of a round's delivery: the sample, the settlement, and what is handed on. -/

namespace Sys2Proof.Machine

/-! ## A settlement that arrives (R36, R47, R48) -/

/-- The lane after a settlement that its Lane Counter takes up. -/
def Lane.settledBy (r : Settlement) (lane : Lane) : Lane :=
  { lane with counter := r.counter, service := { lane.service with state := lane.service.state.afterSettlement } }

/-- The state in which a settlement has been counted. -/
def settlementCounted (l : LaneNo) (r : Settlement) (s : State) : State := countSettlement r (if r.drifted then s.noteDrift l else s)

theorem settlementArrives_taken {l : LaneNo} {s : State} (h : (s.lane l).service.state.takesUp = true) (level : Int) (isOver : Bool) :
    settlementArrives l level isOver s
      = changeLane l (Lane.settledBy (settlement (s.laneSettings l) (s.lane l).counter level isOver))
        (settlementCounted l (settlement (s.laneSettings l) (s.lane l).counter level isOver) s) := if_pos h

theorem settlementArrives_ignored {l : LaneNo} {s : State} (h : (s.lane l).service.state.takesUp = false) (level : Int) (isOver : Bool) :
    settlementArrives l level isOver s = s := if_neg (by rw [h]; exact Bool.false_ne_true)

/-- Only counters and a cause note of DRIFT differ. -/
theorem settlementCounted_eq (l : LaneNo) (r : Settlement) (s : State) :
    ∃ c n, settlementCounted l r s = { s with station := { s.station with counters := c, notes := n } } ∧ n.flags = s.station.notes.flags
      ∧ c.sensorFailures = s.station.counters.sensorFailures := by
  unfold settlementCounted countSettlement
  dsimp only
  split <;> split <;> split <;> split <;> exact ⟨_, _, rfl, rfl, rfl⟩

theorem settlementCounted_noted (l : LaneNo) (r : Settlement) (s : State) : (settlementCounted l r s).Noted s := by
  obtain ⟨c, n, is, -, -⟩ := settlementCounted_eq l r s
  rw [is]
  exact ⟨⟨⟨rfl, rfl, rfl, rfl, rfl⟩, rfl, fun l => .refl (s.lane l), fun _ h => h⟩, rfl, rfl, rfl, rfl⟩

/-- What a settlement adds to a counter, where there is one. -/
def takenAmount (f : Settlement → Nat) (o : Option Settlement) : Nat :=
  match o with
  | some r => f r
  | none => 0

/-- The amounts of R47 and R48: units picked, units put, and a doubtful settlement. -/
def Settlement.picked (r : Settlement) : Nat := (-r.amount).toNat

def Settlement.put (r : Settlement) : Nat := r.amount.toNat

def Settlement.doubts (r : Settlement) : Nat := if r.counter.confidence = .doubtful then 1 else 0

/-- The three counters of the settlements have grown by these amounts, up to their end. -/
structure State.CountsUp (picked put doubtful : Nat) (t s : State) : Prop where
  bounded : CountersBounded t
  unitsPicked : t.station.counters.unitsPicked = min (s.station.counters.unitsPicked + picked) 65535
  unitsPut : t.station.counters.unitsPut = min (s.station.counters.unitsPut + put) 65535
  doubtfulSettlements : t.station.counters.doubtfulSettlements = min (s.station.counters.doubtfulSettlements + doubtful) 65535

theorem CountersBounded.three {s : State} (h : CountersBounded s) : s.station.counters.unitsPicked ≤ 65535
    ∧ s.station.counters.unitsPut ≤ 65535 ∧ s.station.counters.doubtfulSettlements ≤ 65535 := by
  refine ⟨h _ ?_, h _ ?_, h _ ?_⟩ <;> simp [Counters.values]

theorem State.CountsUp.refl {s : State} (h : CountersBounded s) : State.CountsUp 0 0 0 s s := by
  obtain ⟨hp, hq, hd⟩ := h.three
  exact ⟨h, (Nat.min_eq_left hp).symm, (Nat.min_eq_left hq).symm, (Nat.min_eq_left hd).symm⟩

theorem State.CountsUp.trans {p q d p' q' d' : Nat} {u t s : State} (h : State.CountsUp p' q' d' u t) (k : State.CountsUp p q d t s) :
    State.CountsUp (p + p') (q + q') (d + d') u s := by
  obtain ⟨hb, hp, hq, hd⟩ := h
  obtain ⟨-, kp, kq, kd⟩ := k
  refine ⟨hb, ?_, ?_, ?_⟩ <;> omega

/-- Apart from the queue's own, the counters are the same. -/
theorem State.CountsUp.of_apart {p q d : Nat} {u t s : State} (h : State.CountsUp p q d t s) (bounded : CountersBounded u)
    (same : apartFromQueue u.station.counters = apartFromQueue t.station.counters) : State.CountsUp p q d u s := by
  obtain ⟨-, hp, hq, hd⟩ := h
  have picked : (apartFromQueue u.station.counters).unitsPicked = (apartFromQueue t.station.counters).unitsPicked := by rw [same]
  have put : (apartFromQueue u.station.counters).unitsPut = (apartFromQueue t.station.counters).unitsPut := by rw [same]
  have doubtful : (apartFromQueue u.station.counters).doubtfulSettlements = (apartFromQueue t.station.counters).doubtfulSettlements := by
    rw [same]
  exact ⟨bounded, picked.trans hp, put.trans hq, doubtful.trans hd⟩

section
variable {s : State} (h : CountersBounded s)
include h

theorem picked_countsUp (r : Settlement) :
    State.CountsUp r.picked 0 0 (if r.amount < 0 then s.count .unitsPicked r.amount.natAbs else s) s := by
  obtain ⟨-, hq, hd⟩ := h.three
  unfold Settlement.picked
  split
  · have is : (-r.amount).toNat = r.amount.natAbs := by omega
    rw [is]
    exact ⟨count_bounded _ _ h, rfl, (Nat.min_eq_left hq).symm, (Nat.min_eq_left hd).symm⟩
  · have is : (-r.amount).toNat = 0 := by omega
    rw [is]
    exact .refl h

theorem put_countsUp (r : Settlement) : State.CountsUp 0 r.put 0 (if 0 < r.amount then s.count .unitsPut r.amount.natAbs else s) s := by
  obtain ⟨hp, -, hd⟩ := h.three
  unfold Settlement.put
  split
  · have is : r.amount.toNat = r.amount.natAbs := by omega
    rw [is]
    exact ⟨count_bounded _ _ h, (Nat.min_eq_left hp).symm, rfl, (Nat.min_eq_left hd).symm⟩
  · have is : r.amount.toNat = 0 := by omega
    rw [is]
    exact .refl h

theorem doubts_countsUp (r : Settlement) :
    State.CountsUp 0 0 r.doubts (if r.counter.confidence = .doubtful then s.count .doubtfulSettlements 1 else s) s := by
  obtain ⟨hp, hq, -⟩ := h.three
  unfold Settlement.doubts
  split
  · exact ⟨count_bounded _ _ h, (Nat.min_eq_left hp).symm, (Nat.min_eq_left hq).symm, rfl⟩
  · exact .refl h

theorem settlementCounted_counts (l : LaneNo) (r : Settlement) : State.CountsUp r.picked r.put r.doubts (settlementCounted l r s) s := by
  have drifted : State.CountsUp 0 0 0 (if r.drifted then s.noteDrift l else s) s := by
    obtain ⟨_, hp, hq, hd⟩ := State.CountsUp.refl h
    split
    · exact ⟨h, hp, hq, hd⟩
    · exact .refl h
  have picked := picked_countsUp drifted.bounded r
  have put := put_countsUp picked.bounded r
  have doubts := doubts_countsUp put.bounded r
  have all := doubts.trans (put.trans (picked.trans drifted))
  simp only [Nat.zero_add, Nat.add_zero] at all
  exact all

end

/-! ## A gross sample that is no shock (R22 to R28) -/

theorem updateWeighing_twice (l : LaneNo) (f g : Weighing → Weighing) (s : State) :
    (s.updateWeighing l f).updateWeighing l g = s.updateWeighing l fun w => g (f w) := by
  simp [State.updateWeighing, State.updateLane]

theorem updateWeighing_lane (l m : LaneNo) (f : Weighing → Weighing) (s : State) : (s.updateWeighing l f).lane m
    = if m = l then { s.lane l with weighing := f (s.lane l).weighing } else s.lane m := updateLane_lane l m _ s

theorem updateWeighing_self (l : LaneNo) (f : Weighing → Weighing) (s : State) :
    (s.updateWeighing l f).lane l = { s.lane l with weighing := f (s.lane l).weighing } := by
  rw [updateWeighing_lane, if_pos rfl]

/-- The settling test that a state gives a gross sample of lane `l`. -/
def State.settles (s : State) (l : LaneNo) (g : Weight) : Weighing × Option Weight :=
  (s.lane l).weighing.settles s.settings (s.laneSettings l).band s.shock.holdoff g

/-- The state in which lane `l` has taken the sample into its filter and its settling test. -/
def State.weighed (s : State) (l : LaneNo) (g : Weight) : State := s.updateWeighing l fun _ => (s.settles l g).1

theorem quietSample_settles (l : LaneNo) (g : Weight) (s : State) :
    ((s.settles l g).2 = none → quietSample l g s = s.weighed l g)
      ∧ ∀ f, (s.settles l g).2 = some f → quietSample l g s = settlementArrives l f.grams f.isOver (s.weighed l g) := by
  let w := (s.lane l).weighing.sampled s.settings.filterDepth g
  have entered : enterFilter l g (s.updateWeighing l fun w => { w with previousGross := some g.grams }) = s.updateWeighing l fun _ => w := by
    unfold enterFilter
    rw [updateWeighing_twice]
    unfold State.updateWeighing State.updateLane
    rfl
  have lane : ((s.updateWeighing l fun _ => w).lane l).weighing = w := by rw [updateWeighing_self]
  have again (v : Weighing) : ((s.updateWeighing l fun _ => w).updateWeighing l fun _ => v) = s.updateWeighing l fun _ => v :=
    updateWeighing_twice l _ _ s
  unfold quietSample State.weighed State.settles Weighing.settles
  dsimp only
  rw [entered, lane]
  cases hf : filteredValue s.settings.filterDepth w.filter with
  | none => exact ⟨fun _ => rfl, fun f k => (nomatch k)⟩
  | some f =>
    cases hh : s.shock.holdoff with
    | some ends =>
      have held : (s.updateWeighing l fun _ => w).shock.holdoff = some ends := hh
      refine ⟨fun _ => ?_, fun f k => (nomatch k)⟩
      unfold takeFiltered
      rw [held]
    | none =>
      have free : (s.updateWeighing l fun _ => w).shock.holdoff = none := hh
      unfold takeFiltered
      rw [free]
      dsimp only
      rw [lane, again]
      refine ⟨fun k => if_neg fun t => ?_, fun v k => ?_⟩
      · have some' : some f = none := (if_pos t).symm.trans k
        cases some'
      · split at k
        · next t =>
          injection k with k
          subst k
          exact if_pos t
        · cases k

/-! ## One lane in a round without a shock -/

/-- What the delivery of a round without a shock makes of a lane: its weighing record, and the settlement it takes up. -/
def Lane.delivery (settings : StationSettings) (c : LaneSettings) (holdoff : Option Time) (channels : Eight Channel) (lane : Lane) :
    Weighing × Option Settlement :=
  match grossSample channels lane with
  | none => (lane.weighing, none)
  | some g =>
    let r := lane.weighing.settles settings c.band holdoff g
    (r.1, match r.2 with
      | none => none
      | some f => if lane.service.state.takesUp then some (settlement c lane.counter f.grams f.isOver) else none)

/-- The lane after that delivery. -/
def Lane.afterDelivery (d : Weighing × Option Settlement) (lane : Lane) : Lane :=
  match d.2 with
  | none => { lane with weighing := d.1 }
  | some r => { lane with weighing := d.1, counter := r.counter, service := { lane.service with state := .inService } }

theorem grossSample_congr {channels : Eight Channel} {a b : Lane} (h : a.laneView = b.laneView) :
    grossSample channels a = grossSample channels b := by
  unfold grossSample
  rw [laneView_weighing h, laneView_state h]

theorem delivery_congr {settings : StationSettings} {c : LaneSettings} {holdoff : Option Time} {channels : Eight Channel} {a b : Lane}
    (h : a.laneView = b.laneView) : a.delivery settings c holdoff channels = b.delivery settings c holdoff channels := by
  unfold Lane.delivery
  rw [grossSample_congr h, laneView_weighing h, laneView_state h, laneView_counter h]

theorem afterDelivery_congr {d : Weighing × Option Settlement} {a b : Lane} (h : a.laneView = b.laneView) :
    (a.afterDelivery d).laneView = (b.afterDelivery d).laneView := by
  have counter := laneView_counter h
  have service : ({ a.service with reportDue := false } : Service) = { b.service with reportDue := false } := congrArg Lane.service h
  unfold Lane.afterDelivery
  split
  · exact congrArg (fun v : Lane => { v with weighing := d.1 }) h
  · next r _ =>
    exact congrArg (fun v : Lane =>
      ({ weighing := d.1, counter := r.counter, service := { v.service with state := .inService } } : Lane)) h

/-- What one lane's part of a round without a shock does. -/
structure State.Delivered (l : LaneNo) (d : Weighing × Option Settlement) (lane : Lane) (y x : State) : Prop where
  lane : (y.lane l).laneView = (lane.afterDelivery d).laneView
  others : ∀ m, m ≠ l → (y.lane m).laneView = (x.lane m).laneView
  agrees : y.AgreesButLanes x
  shock : y.shock = x.shock
  counts : CountersBounded x → State.CountsUp (takenAmount Settlement.picked d.2) (takenAmount Settlement.put d.2)
    (takenAmount Settlement.doubts d.2) y x

theorem State.Delivered.after {l : LaneNo} {d : Weighing × Option Settlement} {lane : Lane} {y x w : State} (h : y.Delivered l d lane x)
    (kept : ∀ m, m ≠ l → (x.lane m).laneView = (w.lane m).laneView) (agrees : x.AgreesButLanes w) (shock : x.shock = w.shock)
    (counters : CountersBounded w → CountersBounded x)
    (same : apartFromQueue x.station.counters = apartFromQueue w.station.counters) : y.Delivered l d lane w := by
  refine ⟨h.lane, fun m hm => (h.others m hm).trans (kept m hm), h.agrees.trans agrees, h.shock.trans shock, fun hb => ?_⟩
  have start : State.CountsUp 0 0 0 x w := (State.CountsUp.refl hb).of_apart (counters hb) same
  have all := (h.counts (counters hb)).trans start
  simp only [Nat.zero_add] at all
  exact all

theorem afterSettlement_takesUp {st : LaneState} (h : st.takesUp = true) : st.afterSettlement = .inService := by
  cases st with
  | starting => rfl
  | inService => rfl
  | resuming => rfl
  | held => cases h
  | off => cases h
  | fault => cases h

theorem quietSample_delivered {l : LaneNo} {g : Weight} {s : State} (hg : grossSample s.engine.channels (s.lane l) = some g) :
    (quietSample l g s).Delivered l ((s.lane l).delivery s.settings (s.laneSettings l) s.shock.holdoff s.engine.channels) (s.lane l) s := by
  obtain ⟨stays, arrives⟩ := quietSample_settles l g s
  have weighedLane : (s.weighed l g).lane l = { s.lane l with weighing := (s.settles l g).1 } := updateWeighing_self l _ s
  have weighedOther (m : LaneNo) (h : m ≠ l) : (s.weighed l g).lane m = s.lane m := by
    unfold State.weighed
    rw [updateWeighing_lane, if_neg h]
  have moved (d : Weighing × Option Settlement) (h1 : d.1 = (s.settles l g).1) (h2 : d.2 = none) : (s.weighed l g).Delivered l d (s.lane l) s := by
    refine ⟨?_, fun m h => by rw [weighedOther m h], rfl, rfl, fun hb => ?_⟩
    · rw [weighedLane]
      unfold Lane.afterDelivery
      rw [h2, h1]
    · rw [h2]
      obtain ⟨hb', hp, hq, hd⟩ := State.CountsUp.refl hb
      exact ⟨hb', hp, hq, hd⟩
  unfold Lane.delivery
  rw [hg]
  dsimp only
  cases hr : (s.settles l g).2 with
  | none =>
    rw [stays hr]
    refine moved _ rfl ?_
    have settles : (s.lane l).weighing.settles s.settings (s.laneSettings l).band s.shock.holdoff g = s.settles l g := rfl
    rw [settles, hr]
  | some f =>
    rw [arrives f hr]
    cases ht : (s.lane l).service.state.takesUp with
    | false =>
      have ignored : ((s.weighed l g).lane l).service.state.takesUp = false := by rw [weighedLane]; exact ht
      rw [settlementArrives_ignored ignored]
      refine moved _ rfl ?_
      change (match (s.settles l g).2 with | none => none | some f => _) = none
      rw [hr]
      rfl
    | true =>
      let r := settlement (s.laneSettings l) (s.lane l).counter f.grams f.isOver
      let v := s.weighed l g
      let w := settlementCounted l r v
      have taken : (v.lane l).service.state.takesUp = true := by dsimp only [v]; rw [weighedLane]; exact ht
      have is : settlementArrives l f.grams f.isOver v = changeLane l (Lane.settledBy r) w := by
        rw [settlementArrives_taken taken]
        dsimp only [v]
        rw [weighedLane]
        rfl
      have noted := settlementCounted_noted l r v
      have wlane (m : LaneNo) : w.lane m = v.lane m := congrArg (Four.get · m) noted.lanes
      have told := State.LanesTold.changeLane l (Lane.settledBy r) w
      have wagrees : w.AgreesButLanes s := by
        obtain ⟨c, n, hw, hn, -⟩ := settlementCounted_eq l r v
        exact (countSettlement_agreesLanes r _).trans (by split <;> rfl)
      rw [is]
      refine ⟨?_, fun m h => ?_, told.agrees.trans wagrees, told.shock.trans noted.shock, fun hb => ?_⟩
      · rw [changeLane_self, wlane]
        dsimp only [v]
        rw [weighedLane]
        change _ = (Lane.afterDelivery (_, match (s.settles l g).2 with | none => none | some f => _) (s.lane l)).laneView
        rw [hr]
        unfold Lane.settledBy
        dsimp only
        rw [afterSettlement_takesUp ht]
        rfl
      · rw [changeLane_ne h, wlane]
        dsimp only [v]
        rw [weighedOther m h]
      · have counted := settlementCounted_counts (s := v) hb l r
        have done := counted.of_apart (countersBounded_bus.toAisleFrame.changeLane l _ w counted.bounded) told.counters
        have settles : (s.lane l).weighing.settles s.settings (s.laneSettings l).band s.shock.holdoff g = s.settles l g := rfl
        rw [settles, hr]
        exact ⟨done.bounded, done.unitsPicked, done.unitsPut, done.doubtfulSettlements⟩

end Sys2Proof.Machine
end


section
/-! PROOF. The delivery of a round, lane after lane: in a round without a shock, and what every round hands on. -/

namespace Sys2Proof.Machine

/-! ## Every lane once, with what has been done so far -/

theorem foldl_done {α σ : Type} {P : List α → σ → Prop} {f : σ → α → σ} (step : ∀ done a s, a ∉ done → P done s → P (a :: done) (f s a))
    {l : List α} (hl : l.Nodup) {done : List α} {s : σ} (apart : ∀ a ∈ l, a ∉ done) (h : P done s) :
    P (l.reverse ++ done) (l.foldl f s) := by
  induction l generalizing done s with
  | nil => exact h
  | cons a l ih =>
    obtain ⟨ha, hl⟩ := List.nodup_cons.mp hl
    rw [List.reverse_cons, List.append_assoc]
    refine ih hl (fun b hb => ?_) (step done a s (apart a List.mem_cons_self) h)
    rw [List.singleton_append, List.mem_cons, not_or]
    exact ⟨fun e => ha (e ▸ hb), apart b (List.mem_cons_of_mem a hb)⟩

/-- An event of every lane, with an invariant that says which lanes have had their turn. -/
theorem eachLane_done {P : List LaneNo → State → Prop} {f : LaneNo → State → State}
    (step : ∀ done l s, l ∉ done → P done s → P (l :: done) (f l s)) {s : State} (h : P [] s.spend) :
    ∃ order : List LaneNo, order.Perm allLanes ∧ P order (eachLane f s) := by
  have p := arrange_perm (Config.freeOrder s.choices) allLanes
  refine ⟨_, (List.reverse_perm _).trans p, ?_⟩
  have all := foldl_done (P := P) (f := fun t l => f l t) step (p.nodup_iff.mpr allLanes_nodup) (done := []) (fun _ _ h => (nomatch h)) h
  rw [List.append_nil] at all
  exact all

/-! ## A lane's turn, by its sample (R21 to R23, R57) -/

/-- Lane `l` as its part of the delivery finds it in the state: tested for leaving FAULT (R57). -/
def State.atTurn (x : State) (l : LaneNo) : Lane := (x.lane l).toldOk x.now x.engine.channels

theorem testFault_atTurn (l : LaneNo) (x : State) : ((testFault l x).lane l).laneView = (x.atTurn l).laneView := testFault_lane l x

/-- The gross sample of lane `l` in the state is a shock (R23). -/
def State.Shocks (x : State) (l : LaneNo) (g : Weight) : Prop :=
  grossSample x.engine.channels (x.atTurn l) = some g
    ∧ isShock (x.laneSettings l).shockKg (x.atTurn l).weighing.previousGross g.grams = true

section
variable {l : LaneNo} {x : State}

theorem testFault_sample : grossSample (testFault l x).engine.channels ((testFault l x).lane l) = grossSample x.engine.channels (x.atTurn l) := by
  rw [(testFault_agreesLanes l x).engine]
  exact grossSample_congr (testFault_atTurn l x)

theorem testFault_previous (g : Int) :
    isShock ((testFault l x).laneSettings l).shockKg ((testFault l x).lane l).weighing.previousGross g
      = isShock (x.laneSettings l).shockKg (x.atTurn l).weighing.previousGross g := by
  rw [(testFault_agreesLanes l x).laneSettings, laneView_weighing (testFault_atTurn l x)]

theorem deliverRound_none (h : grossSample x.engine.channels (x.atTurn l) = none) : deliverRound l x = testFault l x := by
  unfold deliverRound
  dsimp only
  rw [testFault_sample, h]

theorem deliverRound_shock {g : Weight} (h : x.Shocks l g) : deliverRound l x = shockSample l g (testFault l x) := by
  unfold deliverRound
  dsimp only
  rw [testFault_sample, h.1]
  exact if_pos ((testFault_previous g.grams).trans h.2)

theorem deliverRound_quiet {g : Weight} (hg : grossSample x.engine.channels (x.atTurn l) = some g) (h : ¬ x.Shocks l g) :
    deliverRound l x = quietSample l g (testFault l x) := by
  unfold deliverRound
  dsimp only
  rw [testFault_sample, hg]
  exact if_neg fun k => h ⟨hg, (testFault_previous g.grams).symm.trans k⟩

end

/-- The settlement and the weighing record that the delivery of a round without a shock gives lane `l` in the state. -/
def State.dueTo (x : State) (l : LaneNo) : Weighing × Option Settlement :=
  (x.atTurn l).delivery x.settings (x.laneSettings l) x.shock.holdoff x.engine.channels

theorem deliverRound_delivered {l : LaneNo} {x : State} (h : ∀ g, ¬ x.Shocks l g) :
    (deliverRound l x).Delivered l (x.dueTo l) (x.atTurn l) x := by
  let t := testFault l x
  have agrees : t.AgreesButLanes x := testFault_agreesLanes l x
  have told := State.LanesTold.testFault l x
  have kept (m : LaneNo) (hm : m ≠ l) : (t.lane m).laneView = (x.lane m).laneView := (testFault_kept (Ne.symm hm) x).lane
  have bounded (hb : CountersBounded x) : CountersBounded t := countersBounded_bus.toLaneFrame.testFault l x hb
  cases hg : grossSample x.engine.channels (x.atTurn l) with
  | none =>
    rw [deliverRound_none hg]
    have nothing : x.dueTo l = ((x.atTurn l).weighing, none) := by
      unfold State.dueTo Lane.delivery
      rw [hg]
    rw [nothing]
    refine ⟨(testFault_atTurn l x).trans rfl, kept, agrees, told.shock, fun hb => ?_⟩
    exact (State.CountsUp.refl hb).of_apart (bounded hb) told.counters
  | some g =>
    rw [deliverRound_quiet hg (h g)]
    have done := quietSample_delivered (l := l) (g := g) (s := t) (testFault_sample.trans hg)
    have due : (t.lane l).delivery t.settings (t.laneSettings l) t.shock.holdoff t.engine.channels = x.dueTo l := by
      rw [agrees.settings, agrees.laneSettings, told.shock, agrees.engine]
      exact delivery_congr (testFault_atTurn l x)
    rw [due] at done
    refine State.Delivered.after (x := t) ⟨?_, done.others, done.agrees, done.shock, done.counts⟩ kept agrees told.shock bounded told.counters
    exact done.lane.trans (afterDelivery_congr (testFault_atTurn l x))

/-! ## A round without a shock (R21 to R28, R36, R47, R48) -/

/-- The sum of an amount over the settlements that the delivery gives some lanes. -/
def State.sumDue (f : Settlement → Nat) (v : State) (lanes : List LaneNo) : Nat := (lanes.map fun l => takenAmount f (v.dueTo l).2).sum

/-- What a round without a shock has done when these lanes have had their turn. -/
structure State.QuietSoFar (v : State) (done : List LaneNo) (y : State) : Prop where
  agrees : y.AgreesButLanes v
  shock : y.shock = v.shock
  finished : ∀ l ∈ done, (y.lane l).laneView = ((v.atTurn l).afterDelivery (v.dueTo l)).laneView
  waiting : ∀ l, l ∉ done → (y.lane l).laneView = (v.lane l).laneView
  counts : CountersBounded v → State.CountsUp (v.sumDue Settlement.picked done) (v.sumDue Settlement.put done)
    (v.sumDue Settlement.doubts done) y v

theorem atTurn_congr {x y : State} {l : LaneNo} (now : y.now = x.now) (engine : y.engine = x.engine)
    (lane : (y.lane l).laneView = (x.lane l).laneView) : (y.atTurn l).laneView = (x.atTurn l).laneView := by
  unfold State.atTurn
  rw [now, engine]
  exact toldOk_congr lane

theorem State.QuietSoFar.next {v y : State} {done : List LaneNo} {l : LaneNo} (calm : ∀ l g, ¬ v.Shocks l g) (hl : l ∉ done)
    (h : v.QuietSoFar done y) : v.QuietSoFar (l :: done) (deliverRound l y) := by
  have lane := atTurn_congr h.agrees.now h.agrees.engine (h.waiting l hl)
  have due : y.dueTo l = v.dueTo l := by
    unfold State.dueTo
    rw [h.agrees.settings, h.agrees.laneSettings, h.shock, h.agrees.engine]
    exact delivery_congr lane
  have still (g : Weight) : ¬ y.Shocks l g := fun k => by
    refine calm l g ?_
    unfold State.Shocks at k ⊢
    rw [h.agrees.engine, grossSample_congr lane, h.agrees.laneSettings, laneView_weighing lane] at k
    exact k
  have turn := deliverRound_delivered still
  rw [due] at turn
  refine ⟨turn.agrees.trans h.agrees, turn.shock.trans h.shock, fun m hm => ?_, fun m hm => ?_, fun hb => ?_⟩
  · by_cases e : m = l
    · subst e
      exact turn.lane.trans (afterDelivery_congr lane)
    · exact (turn.others m e).trans (h.finished m ((List.mem_cons.mp hm).resolve_left e))
  · rw [List.mem_cons, not_or] at hm
    exact (turn.others m hm.1).trans (h.waiting m hm.2)
  · have before := h.counts hb
    have all := (turn.counts before.bounded).trans before
    unfold State.sumDue
    simp only [List.map_cons, List.sum_cons]
    rw [Nat.add_comm (takenAmount Settlement.picked _), Nat.add_comm (takenAmount Settlement.put _),
      Nat.add_comm (takenAmount Settlement.doubts _)]
    exact all

theorem eachLane_deliverRound_quiet {v : State} (calm : ∀ l g, ¬ v.Shocks l g) :
    ∃ order : List LaneNo, order.Perm allLanes ∧ v.QuietSoFar order (eachLane deliverRound v) := by
  refine eachLane_done (P := v.QuietSoFar) (fun done l y hl h => h.next calm hl) ⟨rfl, rfl, fun _ h => (nomatch h), fun _ _ => rfl, fun hb => ?_⟩
  obtain ⟨_, hp, hq, hd⟩ := State.CountsUp.refl hb
  exact ⟨hb, hp, hq, hd⟩

/-! ## Lanes under a holdoff (R30) -/

/-- The lane with a holdoff begun or extended upon it. -/
def Lane.underHoldoff (lane : Lane) : Lane := { lane with weighing := lane.weighing.underHoldoff }

/-- The lane `a` is `b`, but for a holdoff that may have begun or been extended. -/
def Lane.HeldFrom (a b : Lane) : Prop := a.laneView = b.laneView ∨ a.laneView = b.underHoldoff.laneView

namespace Lane.HeldFrom

variable {a b c : Lane}

theorem refl (a : Lane) : a.HeldFrom a := Or.inl rfl

theorem of_view (h : a.laneView = b.laneView) : a.HeldFrom b := Or.inl h

theorem underHoldoff_congr (h : a.laneView = b.laneView) : a.underHoldoff.laneView = b.underHoldoff.laneView :=
  congrArg (fun v : Lane => v.underHoldoff) h

theorem trans (h : a.HeldFrom b) (k : b.HeldFrom c) : a.HeldFrom c := by
  rcases h with h | h <;> rcases k with k | k
  · exact Or.inl (h.trans k)
  · exact Or.inr (h.trans k)
  · exact Or.inr (h.trans (underHoldoff_congr k))
  · exact Or.inr (h.trans ((underHoldoff_congr k).trans rfl))

theorem state (h : a.HeldFrom b) : a.service.state = b.service.state := by
  rcases h with h | h
  · exact laneView_state h
  · exact (laneView_state h).trans rfl

theorem counter (h : a.HeldFrom b) : a.counter = b.counter := by
  rcases h with h | h
  · exact laneView_counter h
  · exact (laneView_counter h).trans rfl

theorem alike (h : a.HeldFrom b) : b.Alike a := by
  refine ⟨h.state.symm, ?_, ?_⟩ <;> rw [h.counter]

theorem weighing (h : a.HeldFrom b) : a.weighing = b.weighing ∨ a.weighing = b.weighing.underHoldoff := by
  rcases h with h | h
  · exact Or.inl (laneView_weighing h)
  · exact Or.inr ((laneView_weighing h).trans rfl)

theorem channels (h : a.HeldFrom b) : a.weighing.channels = b.weighing.channels := by
  rcases h.weighing with h | h <;> rw [h]
  rfl

theorem previousGross (h : a.HeldFrom b) : a.weighing.previousGross = b.weighing.previousGross := by
  rcases h.weighing with h | h <;> rw [h]
  rfl

theorem toldOk {now : Time} {channels : Eight Channel} (h : a.HeldFrom b) : (a.toldOk now channels).HeldFrom (b.toldOk now channels) := by
  rcases h with h | h
  · exact Or.inl (toldOk_congr h)
  · have told := toldOk_congr (now := now) (channels := channels) h
    unfold Lane.toldOk at told ⊢
    have state : b.underHoldoff.service.state = b.service.state := rfl
    have chans : b.underHoldoff.weighing.channels = b.weighing.channels := rfl
    rw [state, chans] at told
    by_cases k : b.service.state = .fault ∧ ∀ c ∈ b.weighing.channels, (channels.get c).state = .ok
    · rw [if_pos k] at told ⊢
      exact Or.inl (told.trans rfl)
    · rw [if_neg k] at told ⊢
      exact Or.inr told

theorem grossSample {channels : Eight Channel} (h : a.HeldFrom b) : Machine.grossSample channels a = Machine.grossSample channels b := by
  unfold Machine.grossSample
  rw [h.state, h.channels]

end Lane.HeldFrom

/-! ## A shock (R73 to R76) -/

theorem setHoldoff_heldFrom (ends : Time) (x : State) (l : LaneNo) : ((setHoldoff ends x).lane l).HeldFrom (x.lane l) := by
  rw [setHoldoff_lane]
  exact Or.inr rfl

theorem applyCandidate_cases (candidate : Time) (x : State) : applyCandidate candidate x = setHoldoff candidate x ∨ applyCandidate candidate x = x := by
  unfold applyCandidate
  split
  · exact Or.inl rfl
  · split
    · exact Or.inl rfl
    · exact Or.inr rfl

/-- A step that leaves the lanes but for a holdoff, and hands nothing on. -/
structure State.HoldsOff (y x : State) : Prop where
  quiet : y.Quiet x
  agrees : y.AgreesButLanes x
  lanes : ∀ l, (y.lane l).HeldFrom (x.lane l)

theorem State.HoldsOff.trans {z y x : State} (h : z.HoldsOff y) (k : y.HoldsOff x) : z.HoldsOff x :=
  ⟨h.quiet.trans k.quiet, h.agrees.trans k.agrees, fun l => (h.lanes l).trans (k.lanes l)⟩

theorem applyCandidate_holdsOff (candidate : Time) (x : State) : (applyCandidate candidate x).HoldsOff x := by
  rcases applyCandidate_cases candidate x with h | h <;> rw [h]
  · refine ⟨⟨⟨rfl, rfl, rfl, rfl, rfl⟩, rfl, fun l => (setHoldoff_heldFrom candidate x l).alike, fun l r => ?_⟩, rfl, setHoldoff_heldFrom candidate x⟩
    unfold ReportComes at r ⊢
    rw [setHoldoff_lane]
    exact r
  · exact ⟨.refl x, .refl x, fun l => .refl _⟩

theorem offer_quiet (b : Body) (x : State) : (offer b x).Quiet x :=
  have h := offer_agrees b x
  ⟨h.lanes.sees, h.groups, h.aisle.alike, (offer_reports b x).2⟩

theorem disturbOffer_holdsOff (x : State) : (disturbOffer x).HoldsOff x := by
  unfold disturbOffer
  split
  · let u := x.updateShock fun m => { m with sendInhibit := some (x.now.addMs (m.holdMs / 2)) }
    have h := offer_agrees (.disturb x.shock.ownZone x.shock.holdTime) u
    have start : u.Quiet x := ⟨⟨rfl, rfl, rfl, rfl, rfl⟩, rfl, fun l => .refl (x.lane l), fun _ h => h⟩
    exact ⟨(offer_quiet _ u).trans start, h.lanes.trans rfl, fun l => .of_view (h.aisle.lane l)⟩
  · exact ⟨.refl x, .refl x, fun l => .refl _⟩

theorem shockReported_holdsOff (x : State) : (shockReported x).HoldsOff x :=
  (disturbOffer_holdsOff _).trans (applyCandidate_holdsOff _ x)

/-- The weighing record after a sample that is a shock (R23, R30). -/
def Weighing.shockedBy (depth : Nat) (g : Weight) (w : Weighing) : Weighing := { w.sampled depth g with motion := .moving, window := [] }

theorem shockSample_eq (l : LaneNo) (g : Weight) (x : State) :
    shockSample l g x = (shockReported x).updateWeighing l (Weighing.shockedBy x.settings.filterDepth g) := by
  have settings : (shockReported x).settings = x.settings := (shockReported_holdsOff x).agrees.settings
  unfold shockSample enterFilter
  dsimp only
  rw [updateWeighing_twice, updateWeighing_twice]
  change (shockReported x).updateWeighing l (fun w => { { w.underHoldoff with previousGross := some g.grams } with
    filter := pushFilter (shockReported x).settings.filterDepth g w.filter }) = _
  rw [settings]
  rfl

theorem updateWeighing_quiet (l : LaneNo) (f : Weighing → Weighing) (x : State) : (x.updateWeighing l f).Quiet x := by
  refine (updateLane_onlyLane (l := l) (f := fun lane => { lane with weighing := f lane.weighing }) x rfl).quiet ?_
  rw [updateLane_lane, if_pos rfl]
  exact ⟨rfl, rfl, rfl⟩

theorem updateWeighing_ne {l m : LaneNo} (h : m ≠ l) (f : Weighing → Weighing) (x : State) : (x.updateWeighing l f).lane m = x.lane m := by
  rw [updateWeighing_lane, if_neg h]

/-- A lane's turn leaves every other lane, but for a holdoff. -/
theorem deliverRound_others {l m : LaneNo} (h : m ≠ l) (x : State) : ((deliverRound l x).lane m).HeldFrom (x.lane m) := by
  by_cases k : ∃ g, x.Shocks l g
  · obtain ⟨g, k⟩ := k
    rw [deliverRound_shock k, shockSample_eq, updateWeighing_ne h]
    exact ((shockReported_holdsOff _).lanes m).trans (.of_view (testFault_kept (Ne.symm h) x).lane)
  · exact .of_view ((deliverRound_delivered (not_exists.mp k)).others m h)

/-! ## What a round hands on -/

/-- What a lane may be at its turn, after what the round has recorded of its channels: as it was, out of FAULT, or in FAULT with a channel
that is not OK. -/
def State.ReadyIn (s x : State) (l : LaneNo) : Prop :=
  (s.lane l).Alike (x.lane l) ∨ (s.lane l).service.state = .fault ∧ (x.lane l).service.state = .resuming
    ∨ (x.lane l).service.state = .fault ∧ ¬ ∀ c ∈ (x.lane l).weighing.channels, (x.engine.channels.get c).state = .ok

theorem Handed.settlementArrives {e : Nat} {s x : State} {l : LaneNo} (h : Handed e s x)
    (ready : (s.lane l).Alike (x.lane l) ∨ (s.lane l).service.state = .fault ∧ (x.lane l).service.state = .resuming
      ∨ (x.lane l).service.state = .fault) (level : Int) (isOver : Bool) : Handed e s (Machine.settlementArrives l level isOver x) := by
  cases ht : (x.lane l).service.state.takesUp with
  | false =>
    rw [settlementArrives_ignored ht]
    exact h
  | true =>
    rw [settlementArrives_taken ht]
    let r := settlement (x.laneSettings l) (x.lane l).counter level isOver
    have noted := settlementCounted_noted l r x
    have lane : (settlementCounted l r x).lane l = x.lane l := congrArg (Four.get · l) noted.lanes
    refine (h.quiet noted.quiet).changed (f := Lane.settledBy r) rfl ?_
    rw [lane]
    rcases ready with k | ⟨ha, hb⟩ | k
    · exact Or.inl k
    · refine Or.inr ⟨ha, hb, ?_⟩
      change (x.lane l).service.state.afterSettlement = .inService
      rw [hb]
      rfl
    · rw [k] at ht
      cases ht

theorem Handed.deliverRound {e : Nat} {s x : State} {l : LaneNo} (h : Handed e s x) (ready : s.ReadyIn x l) :
    Handed e s (Machine.deliverRound l x) := by
  let t := Machine.testFault l x
  have tested : Handed e s t ∧ ((s.lane l).Alike (t.lane l) ∨ (s.lane l).service.state = .fault ∧ (t.lane l).service.state = .resuming
      ∨ (t.lane l).service.state = .fault) := by
    dsimp only [t]
    by_cases k : (x.lane l).service.state = .fault ∧ x.channelsOk l = true
    · have first : (s.lane l).Alike (x.lane l) := by
        rcases ready with r | ⟨-, r⟩ | ⟨-, r⟩
        · exact r
        · rw [k.1] at r
          cases r
        · exact absurd ((channelsOk_iff x l).mp k.2) r
      refine ⟨h.testFault first, Or.inr (Or.inl ⟨first.state.trans k.1, ?_⟩)⟩
      unfold Machine.testFault
      rw [if_pos k]
      exact laneView_state (changeLane_self l _ x)
    · have same : Machine.testFault l x = x := if_neg k
      rw [same]
      exact ⟨h, ready.imp id (Or.imp id And.left)⟩
  cases hg : grossSample x.engine.channels (x.atTurn l) with
  | none =>
    rw [deliverRound_none hg]
    exact tested.1
  | some g =>
    by_cases k : x.Shocks l g
    · rw [deliverRound_shock k, shockSample_eq]
      exact (tested.1.quiet (shockReported_holdsOff t).quiet).quiet (updateWeighing_quiet l _ _)
    · rw [deliverRound_quiet hg k]
      obtain ⟨stays, arrives⟩ := quietSample_settles l g t
      have weighed : Handed e s (t.weighed l g) := tested.1.quiet (updateWeighing_quiet l _ t)
      cases hr : (t.settles l g).2 with
      | none =>
        rw [stays hr]
        exact weighed
      | some f =>
        rw [arrives f hr]
        refine weighed.settlementArrives ?_ f.grams f.isOver
        have lane : (t.weighed l g).lane l = { t.lane l with weighing := (t.settles l g).1 } := updateWeighing_self l _ t
        rw [lane]
        exact tested.2.imp (fun a => ⟨a.state, a.count, a.confidence⟩) id

/-- What a round has handed on when these lanes have had their turn. -/
structure State.HandedSoFar (e : Nat) (s v : State) (done : List LaneNo) (y : State) : Prop where
  handed : Handed e s y
  agrees : y.AgreesButLanes v
  waiting : ∀ l, l ∉ done → (y.lane l).HeldFrom (v.lane l)

theorem State.ReadyIn.congr {s v y : State} {l : LaneNo} (h : s.ReadyIn v l) (agrees : y.AgreesButLanes v)
    (lane : (y.lane l).HeldFrom (v.lane l)) : s.ReadyIn y l := by
  unfold State.ReadyIn at h ⊢
  rw [lane.state, lane.channels, agrees.engine]
  exact h.imp (fun k => k.trans lane.alike) id

theorem Handed.delivered {e : Nat} {s v : State} (h : Handed e s v) (ready : ∀ l, s.ReadyIn v l) :
    Handed e s (eachLane Machine.deliverRound v) := by
  obtain ⟨_, -, all⟩ := eachLane_done (P := State.HandedSoFar e s v) (f := Machine.deliverRound) (fun done l y hl k =>
    ⟨k.handed.deliverRound ((ready l).congr k.agrees (k.waiting l hl)), (deliverRound_agreesLanes l y).trans k.agrees, fun m hm => by
      rw [List.mem_cons, not_or] at hm
      exact (deliverRound_others hm.1 y).trans (k.waiting m hm.2)⟩)
    (s := v) ⟨h.quiet (spend_quiet v), rfl, fun l _ => .refl (v.lane l)⟩
  exact all.handed

/-- A lane that the round has faulted stays so, but for a holdoff (R56). -/
theorem eachLane_deliverRound_faulted {v : State} {l : LaneNo} (fault : (v.lane l).service.state = .fault)
    (bad : ¬ ∀ c ∈ (v.lane l).weighing.channels, (v.engine.channels.get c).state = .ok) :
    ((eachLane deliverRound v).lane l).HeldFrom (v.lane l) := by
  have start : (v.spend.lane l).HeldFrom (v.lane l) ∧ v.spend.AgreesButLanes v := ⟨.refl (v.lane l), rfl⟩
  refine (foldl_turns (P := fun y => (y.lane l).HeldFrom (v.lane l) ∧ y.AgreesButLanes v) (Q := fun _ _ => True)
    (f := fun t l => deliverRound l t) (fun m y hy _ => ⟨?_, (deliverRound_agreesLanes m y).trans hy.2⟩) (fun _ _ _ _ _ _ h => h)
    ((arrange_perm (Config.freeOrder v.choices) allLanes).nodup_iff.mpr allLanes_nodup) start fun _ _ => trivial).1
  by_cases e : l = m
  · subst e
    have state : (y.lane l).service.state = .fault := hy.1.state.trans fault
    have still : ¬ ((y.lane l).service.state = .fault ∧ ∀ c ∈ (y.lane l).weighing.channels, (y.engine.channels.get c).state = .ok) := by
      rw [hy.1.channels, hy.2.engine]
      exact fun k => bad k.2
    have turn : y.atTurn l = y.lane l := if_neg still
    have none : grossSample y.engine.channels (y.atTurn l) = none := by
      rw [turn]
      unfold grossSample
      rw [state]
      rfl
    rw [deliverRound_none none]
    have same : testFault l y = y := if_neg fun k => still ⟨k.1, (channelsOk_iff y l).mp k.2⟩
    rw [same]
    exact hy.1
  · exact (deliverRound_others e y).trans hy.1

end Sys2Proof.Machine
end


section
/-! PROOF. The DISTURB in the Transmit Queue while a round's changes go on to the lanes and the groups (R76, R107 to R109). -/

namespace Sys2Proof.Machine

/-! ## The entry that gives way (R108) -/

/-- The entry that gives way is of the worst class that waits. -/
theorem victim_worst {c : Nat} {q : List Entry} {v : Entry} {rest : List Entry} (h : victim c q = some (v, rest)) {x : Entry} (hx : x ∈ q)
    (hw : x.waiting = true) : x.body.priority ≤ v.body.priority := by
  unfold victim at h
  obtain ⟨better, k, worse, hk, hf, none⟩ := List.findSome?_eq_some_iff.mp h
  split at hf
  · next hc =>
    obtain ⟨-, -, -, -, ht⟩ := takeLast_splits hf
    simp only [Bool.and_eq_true, decide_eq_true_eq] at ht
    by_contra hlt
    have k3 := priority_le x.body
    have mem : x.body.priority ∈ better ++ k :: worse := by
      rw [← hk]
      simp only [List.mem_cons, List.not_mem_nil, or_false]
      omega
    have sorted : (better ++ k :: worse).Pairwise (· > ·) := by
      rw [← hk]
      decide
    rw [List.mem_append, List.mem_cons] at mem
    rcases mem with mem | mem | mem
    · have gone := none _ mem
      rw [if_pos (by omega)] at gone
      have found := takeLast_isSome (test := fun e => e.waiting && decide (e.body.priority = x.body.priority)) hx (by simp [hw])
      rw [gone] at found
      cases found
    · omega
    · have below := (List.pairwise_cons.mp (List.pairwise_append.mp sorted).2.1).1 _ mem
      omega
  · cases hf

/-- The identities of the classes before a STATUS. -/
def urgentIdentities : List Identity := .disturb :: allGroups.map .alert

theorem urgent_of_priority {b : Body} (h : b.priority < 2) : b.identity ∈ urgentIdentities := by
  have group (g : GroupNo) : Identity.alert g ∈ urgentIdentities :=
    List.mem_cons_of_mem _ (List.mem_map_of_mem (by revert g; decide))
  cases b with
  | raise g key mask level quality aggregate reorder => exact group g
  | clear g key mask => exact group g
  | disturb zone hold => exact List.mem_cons_self
  | status => exact absurd h (by decide)
  | stock lane article pack count state confidence => exact absurd h (by change ¬ 3 < 2; decide)
  | survey pairs => exact absurd h (by change ¬ 3 < 2; decide)

/-- In a full queue with at most one entry ON LINE some entry waits that is no RAISE, CLEAR or DISTURB: there are five identities of these. -/
theorem full_has_worse {n : Nat} {q : List Entry} (h : QueueShape n q) (hn : n ≤ 1) (full : 8 ≤ q.length) :
    ∃ x ∈ q, x.waiting = true ∧ 2 ≤ x.body.priority := by
  obtain ⟨-, nodup, online⟩ := h
  by_contra none
  have within : waitingIdentities q ⊆ urgentIdentities := fun i hi => by
    obtain ⟨x, hx, rfl⟩ := List.mem_map.mp hi
    obtain ⟨hx, hw⟩ := List.mem_filter.mp hx
    exact urgent_of_priority (Nat.lt_of_not_le fun k => none ⟨x, hx, hw, k⟩)
  have few : (waitingIdentities q).length ≤ 5 := (nodup.subperm within).length_le
  have all : q.length = (q.filter Entry.waiting).length + (q.filter fun e => !e.waiting).length :=
    List.length_eq_length_filter_add Entry.waiting
  unfold waitingIdentities at few
  rw [List.length_map] at few
  unfold onLineCount at online
  omega

/-- So the entry that gives way to a RAISE, a CLEAR or a DISTURB is none of these. -/
theorem victim_of_full {n c : Nat} {q : List Entry} {v : Entry} {rest : List Entry} (h : QueueShape n q) (hn : n ≤ 1) (full : 8 ≤ q.length)
    (hv : victim c q = some (v, rest)) : 2 ≤ v.body.priority := by
  obtain ⟨x, hx, hw, hp⟩ := full_has_worse h hn full
  exact hp.trans (victim_worst hv hx hw)

/-! ## What keeps the DISTURB -/

/-- A step that brings no DISTURB into the Transmit Queue, and takes no waiting one out of a sound one. -/
structure KeepsDisturb (t s : State) : Prop where
  comes : ∀ x ∈ t.queue, x.body.identity = .disturb → x ∈ s.queue
  stays : ∀ n ≤ 1, QueueShape n s.queue → QueueShape n t.queue
    ∧ ∀ x ∈ s.queue, x.waiting = true → x.body.identity = .disturb → x ∈ t.queue

namespace KeepsDisturb

variable {s t u : State}

theorem of_queue (h : t.queue = s.queue) : KeepsDisturb t s := by
  refine ⟨fun x hx _ => h ▸ hx, fun n _ k => ?_⟩
  rw [h]
  exact ⟨k, fun x hx _ _ => hx⟩

theorem refl (s : State) : KeepsDisturb s s := of_queue rfl

theorem trans (h : KeepsDisturb u t) (k : KeepsDisturb t s) : KeepsDisturb u s := by
  refine ⟨fun x hx hi => k.comes x (h.comes x hx hi) hi, fun n hn shape => ?_⟩
  obtain ⟨shape, first⟩ := k.stays n hn shape
  obtain ⟨shape, second⟩ := h.stays n hn shape
  exact ⟨shape, fun x hx hw hi => second x (first x hx hw hi) hw hi⟩

/-- The reports of the lanes leave every other entry. -/
theorem of_sameButStock (h : SameButStock t s) (shape : ∀ n, QueueShape n s.queue → QueueShape n t.queue) : KeepsDisturb t s := by
  have other (x : Entry) (hx : x.body.identity = .disturb) (l : LaneNo) : x.body.identity ≠ .stock l := by
    rw [hx]
    exact fun k => (nomatch k)
  exact ⟨fun x hx hi => (h x (other x hi)).mp hx, fun n _ k => ⟨shape n k, fun x hx _ hi => (h x (other x hi)).mpr hx⟩⟩

theorem laneReport (l : LaneNo) (s : State) : KeepsDisturb (laneReport l s) s :=
  of_sameButStock (laneReport_sameButStock l s) (queueShape_aisle.laneReport l s)

theorem updateAlert (g : GroupNo) (f : Alert → Alert) (s : State) : KeepsDisturb (s.updateAlert g f) s := of_queue rfl

/-- A RAISE or a CLEAR finds a worse entry than a DISTURB in a full queue (R108). -/
theorem offer {b : Body} (hb : b.priority = 0) (s : State) : KeepsDisturb (offer b s) s := by
  have apart {x : Entry} (hx : x.body.identity = .disturb) : x.body.identity ≠ b.identity := by
    rw [hx]
    cases b with
    | raise g key mask level quality aggregate reorder => exact fun k => (nomatch k)
    | clear g key mask => exact fun k => (nomatch k)
    | disturb zone hold => cases hb
    | status => cases hb
    | stock lane article pack count state confidence => cases hb
    | survey pairs => cases hb
  have shape := queueShape_aisle.offer b s
  cases hw : (s.queue.any fun x => x.waitsFor b.identity) with
  | true =>
    rw [offer_coalesces hw] at shape ⊢
    exact ⟨fun x hx hi => (mem_coalesceInto (apart hi)).mp hx, fun n _ k => ⟨shape n k, fun x hx _ hi => (mem_coalesceInto (apart hi)).mpr hx⟩⟩
  | false =>
    rcases Nat.lt_or_ge s.queue.length 8 with hl | hl
    · rw [offer_appends hw hl] at shape ⊢
      exact ⟨fun x hx hi => (mem_append_new (apart hi)).mp hx, fun n _ k => ⟨shape n k, fun x hx _ hi => (mem_append_new (apart hi)).mpr hx⟩⟩
    · cases hv : victim b.priority s.queue with
      | none =>
        rw [offer_refused hw hl hv]
        exact of_queue rfl
      | some gone =>
        obtain ⟨v, rest⟩ := gone
        obtain ⟨p, r, hq, hr, -, -⟩ := victim_splits hv
        rw [offer_evicts hw hl hv] at shape ⊢
        have others {x : Entry} (hi : x.body.identity = .disturb) :
            x ∈ (tellEvicted v.body (State.count .queueEvictions 1 { s with queue := rest ++ [Entry.new b s.now] })).queue ↔ x ∈ rest :=
          (tellEvicted_sameButStock _ _ x fun l => by rw [hi]; exact fun k => (nomatch k)).trans (mem_append_new (apart hi))
        refine ⟨fun x hx hi => victim_rest hv x ((others hi).mp hx), fun n hn k => ⟨shape n k, fun x hx _ hi => (others hi).mpr ?_⟩⟩
        have worse := victim_of_full k hn hl hv
        have ne : x ≠ v := by
          rintro rfl
          have one : x.body.priority = 1 := by
            cases hxb : x.body with
            | disturb zone hold => rfl
            | _ => rw [hxb] at hi; cases hi
          omega
        rw [hq, List.mem_append, List.mem_cons] at hx
        rw [hr, List.mem_append]
        exact hx.imp id fun k => k.resolve_left ne

theorem withdrawRaise (g : GroupNo) (s : State) : KeepsDisturb (withdrawRaise g s) s := by
  have apart {x : Entry} (hx : x.body.identity = .disturb) : x.body.isRaiseOf g = false ∧ ∀ l, x.body.identity ≠ .stock l := by
    refine ⟨?_, fun l => by rw [hx]; exact fun k => (nomatch k)⟩
    cases hr : x.body.isRaiseOf g with
    | false => rfl
    | true =>
      rw [isRaiseOf_identity hr] at hx
      cases hx
  refine ⟨fun x hx hi => ?_, fun n _ k => ⟨queueShape_aisle.withdrawRaise g s n k, fun x hx _ hi => ?_⟩⟩
  · obtain ⟨marked, -⟩ := (withdrawRaise_mem g s (apart hi).2).mp hx
    obtain ⟨y, hy, -, -, ⟨rfl, -⟩ | ⟨rfl, -, hr⟩⟩ := mem_markWithdrawn marked
    · exact hy
    · exact absurd hr (Bool.eq_false_iff.mp (apart (x := { y with withdraw := true }) hi).1)
  · exact withdrawRaise_others hx (apart hi).1 (apart hi).2

/-! ### The groups' alerts -/

theorem onGroup {g : GroupNo} {event : Group → State → State} (h : ∀ gr s, KeepsDisturb (event gr s) s) (s : State) :
    KeepsDisturb (s.onGroup g event) s := by
  unfold State.onGroup
  split
  · exact h _ s
  · exact refl s

theorem enterPending (g : GroupNo) (s : State) : KeepsDisturb (enterPending g s) s :=
  onGroup (fun _ s => (updateAlert g _ _).trans (of_queue (t := s.spend) rfl)) s

theorem testClear (g : GroupNo) (s : State) : KeepsDisturb (testClear g s) s :=
  onGroup (fun _ s => by
    split
    · exact enterPending g s
    · exact refl s) s

theorem offerRaise (g : GroupNo) (s : State) : KeepsDisturb (offerRaise g s) s := onGroup (fun _ s => offer rfl s) s

theorem offerClear (g : GroupNo) (s : State) : KeepsDisturb (offerClear g s) s := onGroup (fun _ s => offer rfl s) s

theorem raisedReport (g : GroupNo) (gr : Group) (s : State) : KeepsDisturb (raisedReport g gr s) s := by
  unfold Machine.raisedReport
  split
  · exact refl s
  · split
    · refine (withdrawRaise g _).trans ((updateAlert g _ _).trans ?_)
      split
      · exact offerClear g s
      · exact refl s
    · split
      · exact (offerRaise g _).trans (updateAlert g _ s)
      · exact refl s

theorem alertReport (g : GroupNo) (s : State) : KeepsDisturb (alertReport g s) s :=
  onGroup (fun gr s => by
    split
    · exact testClear g s
    · split
      · exact refl s
      · exact updateAlert g _ s
    · exact raisedReport g gr s
    · exact refl s
    · split
      · exact refl s
      · exact updateAlert g _ s
    · exact refl s) s

theorem suspensionReport (g : GroupNo) (before after : GroupRecord) (s : State) : KeepsDisturb (suspensionReport g before after s) s := by
  unfold Machine.suspensionReport
  split
  · exact refl s
  · split
    · exact onGroup (fun _ s => by
        split
        · exact refl s
        · exact (withdrawRaise g _).trans (updateAlert g _ s)) s
    · exact onGroup (fun _ s => by
        split
        · exact (testClear g _).trans (updateAlert g _ s)
        · exact refl s) s

theorem evaluate (g : GroupNo) (s : State) : KeepsDisturb (evaluate g s) s := by
  cases hg : s.group g with
  | none =>
    rw [Machine.evaluate, State.onGroup, hg]
    exact refl s
  | some gr =>
    rw [evaluate_eq hg]
    have recorded : KeepsDisturb (s.recorded g gr) s := of_queue rfl
    refine KeepsDisturb.trans ?_ ((suspensionReport g gr.record (s.judges gr) _).trans recorded)
    unfold levelReport
    split
    · exact refl _
    · exact alertReport g _

theorem groupTakesLane (article : Word) (moves : Bool) (g : GroupNo) (s : State) : KeepsDisturb (groupTakesLane article moves g s) s :=
  onGroup (fun _ s => by
    split
    · refine (evaluate g _).trans ?_
      split
      · exact of_queue rfl
      · exact refl s
    · exact refl s) s

theorem groupsTakeLane (l : LaneNo) (before : Lane) (s : State) : KeepsDisturb (groupsTakeLane l before s) s := by
  unfold Machine.groupsTakeLane
  dsimp only
  split
  · exact (foldl_relates KeepsDisturb refl trans _ (fun s g => groupTakesLane _ _ g s) _ _).trans (of_queue rfl)
  · exact refl s

theorem reportChange (force : Bool) (l : LaneNo) (before : Lane) (s : State) : KeepsDisturb (reportChange force l before s) s := by
  unfold Machine.reportChange
  split
  · exact laneReport l s
  · exact refl s

/-- A change of a lane, with its report and its groups. -/
theorem changeLane (l : LaneNo) (f : Lane → Lane) (s : State) : KeepsDisturb (changeLane l f s) s := by
  have spent : KeepsDisturb (s.updateLane l f).spend s := of_queue rfl
  unfold Machine.changeLane
  rw [laneSettled_eq]
  unfold inEitherOrder
  split
  · exact (groupsTakeLane l _ _).trans ((reportChange false l _ _).trans spent)
  · exact (reportChange false l _ _).trans ((groupsTakeLane l _ _).trans spent)

theorem testFault (l : LaneNo) (s : State) : KeepsDisturb (testFault l s) s := by
  unfold Machine.testFault
  split
  · exact changeLane l _ s
  · exact refl s

theorem quietSample (l : LaneNo) (g : Weight) (s : State) : KeepsDisturb (quietSample l g s) s := by
  obtain ⟨stays, arrives⟩ := quietSample_settles l g s
  have weighed : KeepsDisturb (s.weighed l g) s := of_queue rfl
  cases h : (s.settles l g).2 with
  | none =>
    rw [stays h]
    exact weighed
  | some f =>
    rw [arrives f h]
    refine KeepsDisturb.trans ?_ weighed
    cases ht : ((s.weighed l g).lane l).service.state.takesUp with
    | false =>
      rw [settlementArrives_ignored ht]
      exact refl _
    | true =>
      rw [settlementArrives_taken ht]
      obtain ⟨_, _, is, -, -⟩ := settlementCounted_eq l (settlement ((s.weighed l g).laneSettings l) ((s.weighed l g).lane l).counter f.grams f.isOver)
        (s.weighed l g)
      refine (changeLane l _ _).trans (of_queue ?_)
      rw [is]

end KeepsDisturb

end Sys2Proof.Machine
end


section
/-! PROOF. A round with a shock: the holdoff, the send inhibit, the DISTURB and the lanes (R23, R30, R73 to R76). -/

namespace Sys2Proof.Machine

/-! ## The Shock Monitor at a shock -/

/-- The send inhibit of the monitor has passed (R75). -/
def ShockMonitor.passed (now : Time) (m : ShockMonitor) : Bool :=
  match m.sendInhibit with
  | none => true
  | some ends => ends.notAfter now

/-- The end of the holdoff after a candidate end (the table of R73). -/
def ShockMonitor.heldUntil (candidate : Time) (m : ShockMonitor) : Time :=
  match m.holdoff with
  | none => candidate
  | some ends => if ends.before candidate then candidate else ends

/-- The monitor after a shock of a lane (R73 to R76). -/
def ShockMonitor.struck (now : Time) (m : ShockMonitor) : ShockMonitor :=
  { m with
    holdoff := some (m.heldUntil (now.addMs (m.holdTime * 100)))
    sendInhibit := if m.passed now then some (now.addMs (m.holdTime * 50)) else m.sendInhibit }

theorem inhibitPassed_eq (x : State) : inhibitPassed x = x.shock.passed x.now := rfl

theorem before_self (t : Time) : t.before t = false := by
  rw [Time.before, notAfter_refl]
  rfl

theorem heldUntil_held (candidate : Time) (m : ShockMonitor) :
    ({ m with holdoff := some (m.heldUntil candidate) } : ShockMonitor).heldUntil candidate = m.heldUntil candidate := by
  unfold ShockMonitor.heldUntil
  cases m.holdoff with
  | none => exact if_neg (by rw [before_self]; exact Bool.false_ne_true)
  | some ends =>
    dsimp only
    by_cases h : ends.before candidate = true
    · rw [if_pos h, before_self, if_neg Bool.false_ne_true]
    · rw [if_neg h, if_neg h]

theorem struck_inhibited {now : Time} {m : ShockMonitor} (h : m.passed now = false) : (m.struck now).passed now = false := by
  have same : (m.struck now).sendInhibit = m.sendInhibit := if_neg (by rw [h]; exact Bool.false_ne_true)
  unfold ShockMonitor.passed at h ⊢
  rw [same]
  exact h

/-- A further shock at the same moment changes the monitor no more. -/
theorem struck_struck (now : Time) (m : ShockMonitor) : (m.struck now).struck now = m.struck now := by
  have holds : (m.struck now).heldUntil (now.addMs (m.holdTime * 100)) = m.heldUntil (now.addMs (m.holdTime * 100)) := heldUntil_held _ m
  have inhibits : (if (m.struck now).passed now then some (now.addMs (m.holdTime * 50)) else (m.struck now).sendInhibit)
      = (m.struck now).sendInhibit := by
    split
    · next again =>
      have first : m.passed now = true := by
        by_contra no
        rw [struck_inhibited (Bool.eq_false_iff.mpr no)] at again
        cases again
      exact (if_pos first).symm
    · rfl
  change ({ m.struck now with
    holdoff := some ((m.struck now).heldUntil (now.addMs (m.holdTime * 100)))
    sendInhibit := if (m.struck now).passed now then some (now.addMs (m.holdTime * 50)) else (m.struck now).sendInhibit } : ShockMonitor) = _
  rw [holds, inhibits]
  rfl

theorem applyCandidate_shock (candidate : Time) (x : State) :
    (applyCandidate candidate x).shock = { x.shock with holdoff := some (x.shock.heldUntil candidate) } := by
  unfold applyCandidate ShockMonitor.heldUntil
  cases h : x.shock.holdoff with
  | none => rfl
  | some ends =>
    dsimp only
    split
    · rfl
    · rw [← h]

theorem applyCandidate_now (candidate : Time) (x : State) : (applyCandidate candidate x).now = x.now :=
  (applyCandidate_holdsOff candidate x).quiet.sees.now

theorem applyCandidate_queue (candidate : Time) (x : State) : (applyCandidate candidate x).queue = x.queue := by
  rcases applyCandidate_cases candidate x with h | h <;> rw [h]
  rfl

theorem disturbOffer_passed {x : State} (h : x.shock.passed x.now = true) : disturbOffer x
    = offer (.disturb x.shock.ownZone x.shock.holdTime)
      (x.updateShock fun m => { m with sendInhibit := some (x.now.addMs (m.holdTime * 50)) }) := by
  have half : x.shock.holdMs / 2 = x.shock.holdTime * 50 := by
    unfold ShockMonitor.holdMs
    omega
  refine (if_pos h).trans ?_
  change offer _ { x with shock := { x.shock with sendInhibit := some (x.now.addMs (x.shock.holdMs / 2)) } } = _
  rw [half]
  rfl

theorem disturbOffer_inhibited {x : State} (h : x.shock.passed x.now = false) : disturbOffer x = x :=
  if_neg (by rw [inhibitPassed_eq, h]; exact Bool.false_ne_true)

theorem disturbOffer_shock (x : State) : (disturbOffer x).shock
    = { x.shock with sendInhibit := if x.shock.passed x.now then some (x.now.addMs (x.shock.holdTime * 50)) else x.shock.sendInhibit } := by
  cases h : x.shock.passed x.now with
  | true =>
    rw [disturbOffer_passed h, (offer_agrees _ _).aisle.shock]
    rfl
  | false =>
    rw [disturbOffer_inhibited h]
    rfl

theorem shockReported_shock (x : State) : (shockReported x).shock = x.shock.struck x.now := by
  unfold shockReported
  rw [disturbOffer_shock, applyCandidate_shock, applyCandidate_now]
  rfl

/-! ## The DISTURB of a shock (R75, R76, R107, R108) -/

/-- A DISTURB finds a place in a sound queue: a full one has an entry that gives way. -/
theorem offer_disturb_waits {zone : Byte} {hold n : Nat} {s : State} (hn : n ≤ 1) (h : QueueShape n s.queue) :
    ∃ x ∈ (offer (.disturb zone hold) s).queue, x.waiting = true ∧ x.body = .disturb zone hold := by
  let b : Body := .disturb zone hold
  cases hw : (s.queue.any fun x => x.waitsFor b.identity) with
  | true =>
    obtain ⟨x, hx, hm⟩ := List.any_eq_true.mp hw
    rw [offer_coalesces hw]
    exact ⟨x.coalesce b s.now, List.mem_map.mpr ⟨x, hx, if_pos hm⟩, ((waitsFor_iff x _).mp hm).1, rfl⟩
  | false =>
    rcases Nat.lt_or_ge s.queue.length 8 with hl | hl
    · rw [offer_appends hw hl]
      exact ⟨Entry.new b s.now, List.mem_append_right _ (List.mem_singleton.mpr rfl), rfl, rfl⟩
    · obtain ⟨x, hx, hxw, hxp⟩ := full_has_worse h hn hl
      obtain ⟨out, rest, hv⟩ := victim_isSome (c := b.priority) hx hxw hxp
      rw [offer_evicts hw hl hv]
      have other (l : LaneNo) : (Entry.new b s.now).body.identity ≠ .stock l := fun k => (nomatch k)
      exact ⟨Entry.new b s.now, (tellEvicted_sameButStock _ _ _ other).mpr (List.mem_append_right _ (List.mem_singleton.mpr rfl)), rfl, rfl⟩

/-! ## One lane's turn in a round with a shock -/

namespace Lane.HeldFrom

variable {a b : Lane}

theorem moving (h : a.HeldFrom b) (k : b.weighing.motion = .moving) : a.weighing.motion = .moving := by
  rcases h.weighing with h | h <;> rw [h]
  · exact k
  · rfl

theorem shockedBy (h : a.HeldFrom b) (depth : Nat) (g : Weight) : a.weighing.shockedBy depth g = b.weighing.shockedBy depth g := by
  rcases h.weighing with h | h <;> rw [h]
  rfl

theorem shocked {depth : Nat} {g : Weight} {w : Weighing} (h : a.HeldFrom b) (k : b.weighing = w.shockedBy depth g) :
    a.weighing = w.shockedBy depth g := by
  rcases h.weighing with h | h <;> rw [h, k]
  rfl

end Lane.HeldFrom

theorem atTurn_heldFrom {x y : State} {l : LaneNo} (agrees : y.AgreesButLanes x) (lane : (y.lane l).HeldFrom (x.lane l)) :
    (y.atTurn l).HeldFrom (x.atTurn l) := by
  unfold State.atTurn
  rw [agrees.now, agrees.engine]
  exact lane.toldOk

theorem shocks_congr {x y : State} {l : LaneNo} (agrees : y.AgreesButLanes x) (lane : (y.lane l).HeldFrom (x.lane l)) (g : Weight) :
    y.Shocks l g ↔ x.Shocks l g := by
  have turn := atTurn_heldFrom agrees lane
  unfold State.Shocks
  rw [agrees.engine, turn.grossSample, agrees.laneSettings, turn.previousGross]

theorem toldOk_moving {a : Lane} {now : Time} {channels : Eight Channel} (h : a.weighing.motion = .moving) :
    (a.toldOk now channels).weighing.motion = .moving := by
  unfold Lane.toldOk
  split
  · rfl
  · exact h

theorem atTurn_moving {x : State} {l : LaneNo} (h : (x.lane l).weighing.motion = .moving) : (x.atTurn l).weighing.motion = .moving :=
  toldOk_moving h

/-- What a shock of lane `l` does in its turn. -/
structure State.Struck (l : LaneNo) (g : Weight) (y x : State) : Prop where
  weighing : (y.lane l).weighing = (x.atTurn l).weighing.shockedBy x.settings.filterDepth g
  counter : (y.lane l).counter = (x.atTurn l).counter
  shock : y.shock = x.shock.struck x.now
  moving : HoldoffMoving x → ∀ m, (y.lane m).weighing.motion = .moving
  inhibited : x.shock.passed x.now = false → KeepsDisturb y x
  disturbs : x.shock.passed x.now = true → ∀ n ≤ 1, QueueShape n x.queue →
    ∃ e ∈ y.queue, e.waiting = true ∧ e.body = .disturb x.shock.ownZone x.shock.holdTime

theorem testFault_motion {l m : LaneNo} {x : State} (h : (x.lane m).weighing.motion = .moving) :
    ((testFault l x).lane m).weighing.motion = .moving := by
  by_cases e : m = l
  · subst e
    rw [laneView_weighing (testFault_atTurn m x)]
    exact atTurn_moving h
  · rw [laneView_weighing (testFault_kept (Ne.symm e) x).lane]
    exact h

theorem shockReported_moving {x : State} (h : HoldoffMoving x) (m : LaneNo) : ((shockReported x).lane m).weighing.motion = .moving := by
  refine ((disturbOffer_holdsOff _).lanes m).moving ?_
  cases hh : x.shock.holdoff with
  | none =>
    have begins : applyCandidate (x.now.addMs x.shock.holdMs) x = setHoldoff (x.now.addMs x.shock.holdMs) x := by
      unfold applyCandidate
      rw [hh]
    rw [begins, setHoldoff_lane]
  | some ends => exact ((applyCandidate_holdsOff _ x).lanes m).moving (h (by rw [hh]; exact Option.some_ne_none ends) m)

theorem deliverRound_struck {l : LaneNo} {g : Weight} {x : State} (h : x.Shocks l g) : (deliverRound l x).Struck l g x := by
  let t := testFault l x
  have agrees : t.AgreesButLanes x := testFault_agreesLanes l x
  have told := State.LanesTold.testFault l x
  have lane := testFault_atTurn l x
  have reported := (shockReported_holdsOff t).lanes l
  have kept := KeepsDisturb.testFault l x
  let c := t.now.addMs t.shock.holdMs
  have asked : (applyCandidate c t).shock.passed (applyCandidate c t).now = x.shock.passed x.now := by
    rw [applyCandidate_shock, applyCandidate_now, told.shock, agrees.now]
    rfl
  rw [deliverRound_shock h, shockSample_eq]
  let f := Weighing.shockedBy t.settings.filterDepth g
  have self : ((shockReported t).updateWeighing l f).lane l
      = { (shockReported t).lane l with weighing := f ((shockReported t).lane l).weighing } := updateWeighing_self l _ _
  refine ⟨?_, ?_, ?_, fun hm m => ?_, fun passed => ?_, fun passed n hn shape => ?_⟩
  · rw [self]
    change f ((shockReported t).lane l).weighing = _
    have depth : t.settings = x.settings := agrees.settings
    dsimp only [f]
    rw [reported.shockedBy, laneView_weighing lane, depth]
  · rw [self]
    exact reported.counter.trans (laneView_counter lane)
  · change (shockReported t).shock = _
    rw [shockReported_shock, told.shock, agrees.now]
  · have still : HoldoffMoving t := fun k m => testFault_motion (hm (by rw [← told.shock]; exact k) m)
    rw [updateWeighing_lane]
    split
    · rfl
    · exact shockReported_moving still m
  · refine KeepsDisturb.trans (KeepsDisturb.of_queue ?_) kept
    change (disturbOffer (applyCandidate c t)).queue = t.queue
    rw [disturbOffer_inhibited (asked.trans passed), applyCandidate_queue]
  · have shape' : QueueShape n t.queue := (kept.stays n hn shape).1
    change ∃ e ∈ (disturbOffer (applyCandidate c t)).queue, _
    rw [disturbOffer_passed (asked.trans passed), applyCandidate_shock, told.shock]
    refine offer_disturb_waits hn ?_
    change QueueShape n (applyCandidate c t).queue
    rw [applyCandidate_queue]
    exact shape'

theorem deliverRound_keepsDisturb {l : LaneNo} {x : State} (h : ∀ g, ¬ x.Shocks l g) : KeepsDisturb (deliverRound l x) x := by
  cases hg : grossSample x.engine.channels (x.atTurn l) with
  | none =>
    rw [deliverRound_none hg]
    exact .testFault l x
  | some g =>
    rw [deliverRound_quiet hg (h g)]
    exact (KeepsDisturb.quietSample l g _).trans (.testFault l x)

/-- A lane that is MOVING in a holdoff stays so in the delivery (R30). -/
theorem afterDelivery_moving {settings : StationSettings} {c : LaneSettings} {holdoff : Option Time} {channels : Eight Channel} {a : Lane}
    (hh : holdoff ≠ none) (h : a.weighing.motion = .moving) :
    (a.afterDelivery (a.delivery settings c holdoff channels)).weighing.motion = .moving := by
  have weighing : (a.afterDelivery (a.delivery settings c holdoff channels)).weighing = (a.delivery settings c holdoff channels).1 := by
    unfold Lane.afterDelivery
    split <;> rfl
  rw [weighing]
  obtain ⟨ends, rfl⟩ := Option.ne_none_iff_exists'.mp hh
  unfold Lane.delivery
  split
  · exact h
  · unfold Weighing.settles
    dsimp only
    split
    · next k => cases k
    · exact h
    · exact h

theorem deliverRound_stillMoving {l : LaneNo} {x : State} (calm : ∀ g, ¬ x.Shocks l g) (h : HoldoffMoving x) :
    HoldoffMoving (deliverRound l x) := by
  have turn := deliverRound_delivered calm
  intro k m
  rw [turn.shock] at k
  by_cases e : m = l
  · subst e
    rw [laneView_weighing turn.lane]
    exact afterDelivery_moving k (atTurn_moving (h k m))
  · rw [laneView_weighing (turn.others m e)]
    exact h k m

/-! ## A round with a shock -/

/-- One of the lanes that have had their turn has found a shock. -/
abbrev State.ShockIn (v : State) (done : List LaneNo) : Prop := ∃ l ∈ done, ∃ g, v.Shocks l g

/-- What a round has done when these lanes have had their turn, as far as its shocks go. -/
structure State.ShockSoFar (v : State) (done : List LaneNo) (y : State) : Prop where
  agrees : y.AgreesButLanes v
  waiting : ∀ l, l ∉ done → (y.lane l).HeldFrom (v.lane l)
  calm : ¬ v.ShockIn done → y.shock = v.shock
  struck : v.ShockIn done → y.shock = v.shock.struck v.now
  moving : HoldoffMoving v → HoldoffMoving y
  turned : ∀ l ∈ done, ∀ g, v.Shocks l g →
    (y.lane l).weighing = (v.atTurn l).weighing.shockedBy v.settings.filterDepth g ∧ (y.lane l).counter = (v.atTurn l).counter
  shape : ∀ n, QueueShape n v.queue → QueueShape n y.queue
  disturbs : v.ShockIn done → v.shock.passed v.now = true → ∀ n ≤ 1, QueueShape n v.queue →
    ∃ e ∈ y.queue, e.waiting = true ∧ e.body = .disturb v.shock.ownZone v.shock.holdTime
  inhibited : v.shock.passed v.now = false → ∀ e ∈ y.queue, e.body.identity = .disturb → e ∈ v.queue

theorem shockIn_cons {v : State} {l : LaneNo} {done : List LaneNo} : v.ShockIn (l :: done) ↔ (∃ g, v.Shocks l g) ∨ v.ShockIn done := by
  unfold State.ShockIn
  simp only [List.mem_cons, exists_eq_or_imp]

theorem State.ShockSoFar.next {v y : State} {done : List LaneNo} {l : LaneNo} (hl : l ∉ done) (h : v.ShockSoFar done y) :
    v.ShockSoFar (l :: done) (deliverRound l y) := by
  have alike (g : Weight) : y.Shocks l g ↔ v.Shocks l g := shocks_congr h.agrees (h.waiting l hl) g
  have turn := atTurn_heldFrom h.agrees (h.waiting l hl)
  have agrees : (deliverRound l y).AgreesButLanes v := (deliverRound_agreesLanes l y).trans h.agrees
  have waiting : ∀ m, m ∉ l :: done → ((deliverRound l y).lane m).HeldFrom (v.lane m) := fun m hm => by
    rw [List.mem_cons, not_or] at hm
    exact (deliverRound_others hm.1 y).trans (h.waiting m hm.2)
  have turnedBefore (m : LaneNo) (hm : m ∈ done) (g : Weight) (hg : v.Shocks m g) :
      ((deliverRound l y).lane m).weighing = (v.atTurn m).weighing.shockedBy v.settings.filterDepth g
        ∧ ((deliverRound l y).lane m).counter = (v.atTurn m).counter := by
    obtain ⟨weighing, counter⟩ := h.turned m hm g hg
    have ne : m ≠ l := fun e => hl (e ▸ hm)
    exact ⟨(deliverRound_others ne y).shocked weighing, (deliverRound_others ne y).counter.trans counter⟩
  have shape (n : Nat) (k : QueueShape n v.queue) : QueueShape n (deliverRound l y).queue :=
    queueShape_bus.toLaneFrame.deliverRound l y n (h.shape n k)
  have own : y.shock.ownZone = v.shock.ownZone ∧ y.shock.holdTime = v.shock.holdTime := by
    by_cases k : v.ShockIn done
    · rw [h.struck k]
      exact ⟨rfl, rfl⟩
    · rw [h.calm k]
      exact ⟨rfl, rfl⟩
  have stays (keeps : KeepsDisturb (deliverRound l y) y) (n : Nat) (hn : n ≤ 1) (k : QueueShape n v.queue)
      (there : ∃ e ∈ y.queue, e.waiting = true ∧ e.body = .disturb v.shock.ownZone v.shock.holdTime) :
      ∃ e ∈ (deliverRound l y).queue, e.waiting = true ∧ e.body = .disturb v.shock.ownZone v.shock.holdTime := by
    obtain ⟨e, he, hw, hb⟩ := there
    exact ⟨e, (keeps.stays n hn (h.shape n k)).2 e he hw (by rw [hb]; rfl), hw, hb⟩
  by_cases shock : ∃ g, v.Shocks l g
  · obtain ⟨g, hg⟩ := shock
    have struck := deliverRound_struck ((alike g).mpr hg)
    have here : v.ShockIn (l :: done) := shockIn_cons.mpr (Or.inl ⟨g, hg⟩)
    refine ⟨agrees, waiting, fun k => absurd here k, fun _ => ?_, fun hm _ m => struck.moving (h.moving hm) m, fun m hm k hk => ?_, shape,
      fun _ passed n hn k => ?_, fun passed e he hi => ?_⟩
    · rw [struck.shock, h.agrees.now]
      by_cases k : v.ShockIn done
      · rw [h.struck k, struck_struck]
      · rw [h.calm k]
    · rcases List.mem_cons.mp hm with rfl | hm
      · have same : k = g := Option.some.inj (hk.1.symm.trans hg.1)
        rw [same, struck.weighing, struck.counter, h.agrees.settings]
        exact ⟨turn.shockedBy _ g, turn.counter⟩
      · exact turnedBefore m hm k hk
    · cases hp : y.shock.passed y.now with
      | true =>
        have comes := struck.disturbs hp n hn (h.shape n k)
        rw [own.1, own.2] at comes
        exact comes
      | false =>
        refine stays (struck.inhibited hp) n hn k (h.disturbs ?_ passed n hn k)
        by_contra calm
        rw [h.calm calm, h.agrees.now, passed] at hp
        cases hp
    · have closed : y.shock.passed y.now = false := by
        rw [h.agrees.now]
        by_cases k : v.ShockIn done
        · rw [h.struck k]
          exact struck_inhibited passed
        · rw [h.calm k]
          exact passed
      exact h.inhibited passed e ((struck.inhibited closed).comes e he hi) hi
  · have calm (g : Weight) : ¬ y.Shocks l g := fun k => shock ⟨g, (alike g).mp k⟩
    have turn := deliverRound_delivered calm
    have keeps := deliverRound_keepsDisturb calm
    have same : v.ShockIn (l :: done) ↔ v.ShockIn done := shockIn_cons.trans (or_iff_right shock)
    refine ⟨agrees, waiting, fun k => turn.shock.trans (h.calm (mt same.mpr k)), fun k => turn.shock.trans (h.struck (same.mp k)),
      fun hm => deliverRound_stillMoving calm (h.moving hm), fun m hm k hk => ?_, shape,
      fun k passed n hn q => stays keeps n hn q (h.disturbs (same.mp k) passed n hn q),
      fun passed e he hi => h.inhibited passed e (keeps.comes e he hi) hi⟩
    rcases List.mem_cons.mp hm with rfl | hm
    · exact absurd ⟨k, hk⟩ shock
    · exact turnedBefore m hm k hk

theorem eachLane_deliverRound_shock (v : State) :
    ∃ order : List LaneNo, order.Perm allLanes ∧ v.ShockSoFar order (eachLane deliverRound v) := by
  have none : ¬ v.ShockIn [] := fun ⟨_, h, _⟩ => (nomatch h)
  exact eachLane_done (P := v.ShockSoFar) (fun done l y hl h => h.next hl)
    ⟨rfl, fun l _ => .refl (v.lane l), fun _ => rfl, fun k => absurd k none, fun h => h, fun _ h => (nomatch h), fun _ h => h,
      fun k => absurd k none, fun _ _ h _ => h⟩

end Sys2Proof.Machine
end


section
/-! PROOF. The end of a round whose channel records stand: the delivery, and the next round's start (R12, R13). -/

namespace Sys2Proof.Machine

/-! ## The engine at the end of a round -/

/-- The delivery is the lanes' turns, and the engine's part is the results, the transaction and a pending round. -/
theorem endRound_engine {d : Bool} {v : State} {first : ChannelNo} {others : List ChannelNo} (h : v.channelsFrom 0 = first :: others) :
    ∃ after : Engine, endRound d v = { eachLane deliverRound (endTransaction v) with engine := after }
      ∧ (∀ c, after.channels.get c = { v.engine.channels.get c with result := .none }) ∧ after.pendingRound = false
      ∧ (v.engine.pendingRound = false → after.transaction = none)
      ∧ (v.engine.pendingRound = true → after.transaction = some ⟨.channel first, checkedStage v.now d⟩) := by
  let y := eachLane deliverRound (endTransaction v)
  have agrees : y.AgreesButLanes (endTransaction v) := eachLane_agreesLanes deliverRound_agreesLanes _
  have engine : y.engine = { v.engine with transaction := none } := agrees.engine
  have now : y.now = v.now := agrees.now
  have pending : y.engine.pendingRound = v.engine.pendingRound := by rw [engine]
  let reset : Engine := { y.engine with channels := y.engine.channels.map fun c => { c with result := .none } }
  have records (c : ChannelNo) : reset.channels.get c = { v.engine.channels.get c with result := .none } := by
    dsimp only [reset]
    rw [Eight.get_map, engine]
  have nothing : reset.transaction = none := by
    dsimp only [reset]
    rw [engine]
  cases hp : v.engine.pendingRound with
  | false =>
    have ends : endRound d v = { y with engine := reset } :=
      if_neg (show ¬ y.engine.pendingRound = true by rw [pending, hp]; exact Bool.false_ne_true)
    exact ⟨reset, ends, records, pending.trans hp, fun _ => nothing, fun k => (nomatch k)⟩
  | true =>
    let u : State := { y with engine := { reset with pendingRound := false } }
    have ends : endRound d v = startRound d u := if_pos (show y.engine.pendingRound = true from pending.trans hp)
    have starts : u.channelsFrom 0 = first :: others := by
      rw [← h]
      refine channelsFrom_congr fun c _ => ?_
      change (reset.channels.get c).state = .idle ↔ _
      rw [records]
    refine ⟨{ reset with pendingRound := false, transaction := some ⟨.channel first, checkedStage v.now d⟩ }, ?_, records, rfl,
      fun k => (nomatch k), fun _ => rfl⟩
    rw [ends, startRound, starts]
    change { u with engine := { u.engine with transaction := some ⟨.channel first, checkedStage y.now d⟩ } } = _
    rw [now]

/-! ## What the round has recorded before its delivery -/

/-- The state `v` in which the channel records of the round that began before `s` are these, and the reports of the channels have gone to
their lanes. -/
structure State.Recorded (e : Nat) (channels : Eight Channel) (s v : State) : Prop where
  handed : Handed e s v
  engine : v.engine = { s.engine with channels := channels }
  idle : ∀ c, (channels.get c).state = .idle ↔ (s.engine.channels.get c).state = .idle
  shock : v.shock = s.shock
  peers : v.peers = s.peers
  faulted : ∀ l, (s.lane l).faultsBy s.engine.channels channels → (v.lane l).laneView = ((s.lane l).enterFault (at' e s)).laneView
  others : ∀ l, ¬ (s.lane l).faultsBy s.engine.channels channels → (v.lane l).laneView = (s.lane l).laneView
    ∨ ((s.lane l).service.state = .fault ∧ ∀ c ∈ (s.lane l).weighing.channels, (channels.get c).state = .ok)
      ∧ (v.lane l).laneView = ((s.lane l).enterResuming (at' e s)).laneView
  shape : ∀ n, QueueShape n s.queue → QueueShape n v.queue
  disturbs : ∀ x ∈ v.queue, x.body.identity = .disturb → ∃ y ∈ s.queue, y.body = x.body ∧ y.enqueued = x.enqueued
  bounded : CountersBounded s → CountersBounded v
  settled : v.station.counters.unitsPicked = s.station.counters.unitsPicked ∧ v.station.counters.unitsPut = s.station.counters.unitsPut
    ∧ v.station.counters.doubtfulSettlements = s.station.counters.doubtfulSettlements

namespace State.Recorded

variable {e : Nat} {channels : Eight Channel} {s v : State}

theorem now (h : s.Recorded e channels v) : (endTransaction v).now = at' e s := h.handed.now

theorem records (h : s.Recorded e channels v) : (endTransaction v).engine.channels = channels := by
  change v.engine.channels = channels
  rw [h.engine]

theorem settings (h : s.Recorded e channels v) : (endTransaction v).settings = s.settings := by
  unfold State.settings
  rw [show (endTransaction v).station.config = s.station.config from h.handed.config]

theorem laneSettings (h : s.Recorded e channels v) (l : LaneNo) : (endTransaction v).laneSettings l = s.laneSettings l :=
  laneSettings_of_config h.handed.config l

/-- A faulted lane has a channel that is not OK. -/
theorem faulted_bad {lane a : Lane} {before : Eight Channel} {now : Time} (h : lane.faultsBy before channels)
    (view : a.laneView = (lane.enterFault now).laneView) :
    a.service.state = .fault ∧ ¬ ∀ c ∈ a.weighing.channels, (channels.get c).state = .ok := by
  obtain ⟨-, -, c, hc, -, hf⟩ := h
  have weighs : a.weighing.channels = lane.weighing.channels := by
    rw [laneView_weighing view]
    rfl
  refine ⟨(laneView_state view).trans rfl, fun k => ?_⟩
  have ok := k c (weighs ▸ hc)
  rw [hf] at ok
  cases ok

/-- A lane's turn finds it as the statements say. -/
theorem found (h : s.Recorded e channels v) (l : LaneNo) :
    ((endTransaction v).atTurn l).laneView = (s.found channels (at' e s) l).laneView := by
  unfold State.atTurn State.found Lane.beforeDelivery
  rw [h.now, h.records]
  change ((v.lane l).toldOk (at' e s) channels).laneView = _
  by_cases k : (s.lane l).faultsBy s.engine.channels channels
  · have view := h.faulted l k
    obtain ⟨-, bad⟩ := faulted_bad k view
    rw [if_pos k, Lane.toldOk, if_neg fun t => bad t.2]
    exact view
  · rw [if_neg k]
    by_cases ok : (s.lane l).service.state = .fault ∧ ∀ c ∈ (s.lane l).weighing.channels, (channels.get c).state = .ok
    · rw [if_pos ok]
      rcases h.others l k with view | ⟨-, view⟩
      · rw [toldOk_congr view, Lane.toldOk, if_pos ok]
      · have state : (v.lane l).service.state = .resuming := (laneView_state view).trans rfl
        rw [Lane.toldOk, if_neg fun t => by rw [state] at t; cases t.1]
        exact view
    · rw [if_neg ok]
      rcases h.others l k with view | ⟨k, -⟩
      · rw [toldOk_congr view, Lane.toldOk, if_neg ok]
      · exact absurd k ok

theorem dueTo (h : s.Recorded e channels v) (l : LaneNo) : (endTransaction v).dueTo l
    = (s.found channels (at' e s) l).delivery s.settings (s.laneSettings l) s.shock.holdoff channels := by
  unfold State.dueTo
  rw [h.settings, h.laneSettings, h.records]
  change Lane.delivery _ _ v.shock.holdoff _ _ = _
  rw [h.shock]
  exact delivery_congr (h.found l)

theorem shocks_iff (h : s.Recorded e channels v) (l : LaneNo) (g : Weight) :
    (endTransaction v).Shocks l g ↔ s.shockIn channels (at' e s) l g := by
  unfold State.Shocks State.shockIn
  rw [h.records, grossSample_congr (h.found l), h.laneSettings, laneView_weighing (h.found l)]

theorem ready (h : s.Recorded e channels v) (l : LaneNo) : s.ReadyIn (endTransaction v) l := by
  by_cases k : (s.lane l).faultsBy s.engine.channels channels
  · obtain ⟨state, bad⟩ := faulted_bad k (h.faulted l k)
    refine Or.inr (Or.inr ⟨state, ?_⟩)
    rw [h.records]
    exact bad
  · rcases h.others l k with view | ⟨⟨fault, -⟩, view⟩
    · exact Or.inl (laneView_alike view).symm
    · exact Or.inr (Or.inl ⟨fault, (laneView_state view).trans rfl⟩)

theorem moving (h : s.Recorded e channels v) (hm : HoldoffMoving s) : HoldoffMoving (endTransaction v) := by
  intro k l
  have still := hm (by rw [← h.shock]; exact k) l
  change (v.lane l).weighing.motion = .moving
  by_cases f : (s.lane l).faultsBy s.engine.channels channels
  · rw [laneView_weighing (h.faulted l f)]
    rfl
  · rcases h.others l f with view | ⟨-, view⟩
    · rw [laneView_weighing view]
      exact still
    · rw [laneView_weighing view]
      rfl

end State.Recorded

/-! ## The delivery in the words of the statements -/

theorem taken_eq (channels : Eight Channel) (now : Time) (s : State) (l : LaneNo) :
    s.taken channels now l = ((s.found channels now l).delivery s.settings (s.laneSettings l) s.shock.holdoff channels).2 := by
  unfold State.taken Lane.delivery
  dsimp only
  cases grossSample channels (s.found channels now l) with
  | none => rfl
  | some g => rfl

theorem sumDue_eq {e : Nat} {channels : Eight Channel} {s v : State} (h : s.Recorded e channels v) (f : Settlement → Nat) {order : List LaneNo}
    (perm : order.Perm allLanes) : (endTransaction v).sumDue f order = sumTaken f channels (at' e s) s := by
  unfold State.sumDue sumTaken
  rw [(perm.map _).sum_eq]
  congr 1
  refine List.map_congr_left fun l _ => ?_
  rw [h.dueTo, ← taken_eq]
  rfl

/-- A lane after the delivery of a round without a shock, by its sample and its settlement. -/
theorem afterDelivery_cases (settings : StationSettings) (c : LaneSettings) (holdoff : Option Time) (channels : Eight Channel) (a : Lane) :
    let d := a.delivery settings c holdoff channels
    (a.afterDelivery d).weighing = (match grossSample channels a with
        | some g => (a.weighing.settles settings c.band holdoff g).1
        | none => a.weighing)
      ∧ (a.afterDelivery d).counter = (match d.2 with
        | some r => r.counter
        | none => a.counter)
      ∧ (a.afterDelivery d).service.state = (match d.2 with
        | some _ => .inService
        | none => a.service.state) := by
  intro d
  have weighing : d.1 = (match grossSample channels a with
      | some g => (a.weighing.settles settings c.band holdoff g).1
      | none => a.weighing) := by
    dsimp only [d]
    unfold Lane.delivery
    split
    · next k => rw [k]
    · next k => rw [k]
  rw [← weighing]
  unfold Lane.afterDelivery
  cases d.2 with
  | none => exact ⟨rfl, rfl, rfl⟩
  | some r => exact ⟨rfl, rfl, rfl⟩

section
variable {e : Nat} {channels : Eight Channel} {s v : State} (h : s.Recorded e channels v)
include h

theorem delivered_quiet {t : State} (lanes : t.lanes = (eachLane deliverRound (endTransaction v)).lanes)
    (shock : t.shock = (eachLane deliverRound (endTransaction v)).shock)
    (counters : t.station.counters = (eachLane deliverRound (endTransaction v)).station.counters)
    (calm : ∀ l g, ¬ s.shockIn channels (at' e s) l g) : QuietRound channels (at' e s) s t := by
  obtain ⟨order, perm, done⟩ := eachLane_deliverRound_quiet fun l g k => calm l g ((h.shocks_iff l g).mp k)
  refine ⟨fun l => ?_, fun hb => ?_, (shock.trans done.shock).trans h.shock⟩
  · have view : (t.lane l).laneView = ((s.found channels (at' e s) l).afterDelivery
        ((s.found channels (at' e s) l).delivery s.settings (s.laneSettings l) s.shock.holdoff channels)).laneView := by
      rw [← h.dueTo]
      exact (congrArg (fun lanes : Four Lane => (lanes.get l).laneView) lanes).trans
        ((done.finished l (perm.mem_iff.mpr (mem_allLanes l))).trans (afterDelivery_congr (h.found l)))
    obtain ⟨weighing, counter, state⟩ := afterDelivery_cases s.settings (s.laneSettings l) s.shock.holdoff channels (s.found channels (at' e s) l)
    rw [← taken_eq] at counter state
    exact ⟨(laneView_weighing view).trans weighing, (laneView_counter view).trans counter, (laneView_state view).trans state⟩
  · obtain ⟨-, picked, put, doubtful⟩ := done.counts (h.bounded hb)
    obtain ⟨samePicked, samePut, sameDoubtful⟩ := h.settled
    rw [sumDue_eq h _ perm] at picked put doubtful
    have own : (endTransaction v).station.counters = v.station.counters := rfl
    rw [own, samePicked] at picked
    rw [own, samePut] at put
    rw [own, sameDoubtful] at doubtful
    rw [counters]
    exact ⟨picked, put, doubtful⟩

theorem delivered_shocked {t : State} (lanes : t.lanes = (eachLane deliverRound (endTransaction v)).lanes)
    (shock : t.shock = (eachLane deliverRound (endTransaction v)).shock)
    (queue : Remarked t.queue (eachLane deliverRound (endTransaction v)).queue) {l : LaneNo} {g : Weight}
    (hit : s.shockIn channels (at' e s) l g) (moves : HoldoffMoving s) : ShockedRound channels (at' e s) l g s t := by
  obtain ⟨order, perm, done⟩ := eachLane_deliverRound_shock (endTransaction v)
  let y := eachLane deliverRound (endTransaction v)
  have turn : l ∈ order := perm.mem_iff.mpr (mem_allLanes l)
  have hits : (endTransaction v).Shocks l g := (h.shocks_iff l g).mpr hit
  have struck : y.shock = s.shock.struck (at' e s) := by
    have k := done.struck ⟨l, turn, g, hits⟩
    rw [h.now] at k
    exact k.trans (congrArg (ShockMonitor.struck (at' e s)) h.shock)
  have lane (m : LaneNo) : t.lane m = y.lane m := congrArg (Four.get · m) lanes
  have monitor : (endTransaction v).shock.passed (endTransaction v).now = s.shock.passed (at' e s) := by
    rw [h.now]
    exact congrArg (ShockMonitor.passed (at' e s)) h.shock
  have notOff : ¬ (s.lane l).faultsBy s.engine.channels channels := fun f => by
    have sample := hits.1
    have bad := State.Recorded.faulted_bad f (h.faulted l f)
    have state : ((endTransaction v).atTurn l).service.state = .fault := by
      unfold State.atTurn Lane.toldOk
      rw [h.records, if_neg fun k => bad.2 k.2]
      exact bad.1
    unfold grossSample at sample
    rw [state] at sample
    cases sample
  obtain ⟨weighing, counter⟩ := done.turned l turn g hits
  refine ⟨?_, ?_, fun m => ?_, ?_, fun passed => ?_, fun later some' => ?_⟩
  · rw [lane, weighing, h.settings, laneView_weighing (h.found l)]
    rfl
  · rw [lane, counter, laneView_counter (h.found l)]
    unfold State.found Lane.beforeDelivery
    rw [if_neg notOff]
    split <;> rfl
  · rw [lane]
    refine done.moving (h.moving moves) ?_ m
    rw [struck]
    exact Option.some_ne_none _
  · rw [shock, struck]
    rfl
  · have free : s.shock.passed (at' e s) = true := by
      unfold ShockMonitor.passed
      rcases passed with k | k
      · rw [k]
      · unfold due at k
        split at k
        · next ends hk => rw [hk]; exact k
        · cases k
    refine ⟨?_, fun sound => ?_⟩
    · rw [shock, struck]
      exact if_pos free
    · obtain ⟨x, hx, hw, hb⟩ := done.disturbs ⟨l, turn, g, hits⟩ (monitor.trans free) _ (by split <;> decide)
        (h.shape _ ((queueSound_iff s).mp sound))
      have body : x.body = .disturb s.shock.ownZone s.shock.holdTime := by
        rw [← h.shock]
        exact hb
      obtain ⟨z, hz, same⟩ := queue.mem hx
      exact ⟨z, hz, same.waiting.trans hw, same.body.trans body⟩
  · have closed : s.shock.passed (at' e s) = false := by
      obtain ⟨ends, hends⟩ := Option.ne_none_iff_exists'.mp some'
      unfold ShockMonitor.passed
      unfold due at later
      rw [hends] at later ⊢
      exact later
    refine ⟨?_, fun x hx hi => ?_⟩
    · rw [shock, struck]
      exact if_neg (by rw [closed]; exact Bool.false_ne_true)
    · obtain ⟨z, hz, same⟩ := queue.mem_inv hx
      have zi : z.body.identity = .disturb := by rw [← same.body]; exact hi
      obtain ⟨y, hy, body, enqueued⟩ := h.disturbs z (done.inhibited (monitor.trans closed) z hz zi) zi
      exact ⟨y, hy, body.trans same.body.symm, enqueued.trans same.enqueued.symm⟩

end

/-- A lane that a holdoff has not changed but for its settling. -/
theorem heldFrom_faulted {a lane : Lane} {now : Time} (h : a.HeldFrom b) (view : b.laneView = (lane.enterFault now).laneView) :
    a.service.state = .fault ∧ a.service.holdTimer = none ∧ a.service.faultBeatOrigin = now
      ∧ a.counter = { lane.counter with confidence := .unknown }
      ∧ a.weighing = { lane.weighing with motion := .moving, window := [], previousGross := none } := by
  have weighing : a.weighing = { lane.weighing with motion := .moving, window := [], previousGross := none } := by
    rcases h.weighing with k | k <;> rw [k, laneView_weighing view]
    · rfl
    · rfl
  have service {β : Type} (f : Service → β) (hf : ∀ sv, f { sv with reportDue := false } = f sv) : f a.service = f b.service := by
    rcases h with k | k
    · exact laneView_service k f hf
    · exact (laneView_service k f hf).trans rfl
  exact ⟨h.state.trans ((laneView_state view).trans rfl),
    (service Service.holdTimer fun _ => rfl).trans (laneView_service view Service.holdTimer fun _ => rfl),
    (service Service.faultBeatOrigin fun _ => rfl).trans (laneView_service view Service.faultBeatOrigin fun _ => rfl),
    h.counter.trans ((laneView_counter view).trans rfl), weighing⟩

/-- The end of a round whose records stand, in the words of the statement (R12, R13). -/
theorem endRound_ends {e : Nat} {d : Bool} {channels : Eight Channel} {s v : State} (h : s.Recorded e channels v)
    (configured : s.channelsFrom 0 ≠ []) : RoundEnds d channels e s (keepUp (endRound d v)) := by
  obtain ⟨first, others, starts⟩ := List.exists_cons_of_ne_nil configured
  have same : v.channelsFrom 0 = first :: others := by
    rw [← starts]
    refine channelsFrom_congr fun c _ => ?_
    rw [h.engine]
    exact h.idle c
  obtain ⟨after, ends, records, pending, rests, goes⟩ := endRound_engine (d := d) same
  have enginePending : v.engine.pendingRound = s.engine.pendingRound := by rw [h.engine]
  have now : v.now = at' e s := h.handed.now
  let y := eachLane deliverRound (endTransaction v)
  let t : State := { y with engine := after }
  have agrees : y.AgreesButLanes (endTransaction v) := eachLane_agreesLanes deliverRound_agreesLanes _
  have is : keepUp (endRound d v) = keepUp t := congrArg keepUp ends
  have handed : Handed e s t := by
    have start : Handed e s (endTransaction v) := h.handed.quiet ⟨⟨rfl, rfl, rfl, rfl, rfl⟩, rfl, fun l => .refl (v.lane l), fun _ k => k⟩
    exact (start.delivered h.ready).quiet ⟨⟨rfl, rfl, rfl, rfl, rfl⟩, rfl, fun l => .refl (y.lane l), fun _ k => k⟩
  rw [is]
  refine ⟨fun c => ?_, pending, fun k => rests (enginePending.trans k), fun k f o hf => ?_, fun l fault => ?_,
    fun calm => delivered_quiet h rfl rfl rfl calm, fun l g hit moves => delivered_shocked (t := keepUp t) h rfl rfl (keepUp_remarked t) hit moves,
    (handed.quiet (keepUp_quiet t)).handOn, agrees.peers.trans h.peers⟩
  · refine (records c).trans ?_
    rw [h.engine]
  · rw [starts] at hf
    injection hf with hf _
    rw [← hf, ← now]
    exact goes (enginePending.trans k)
  · have view := h.faulted l fault
    obtain ⟨state, bad⟩ := State.Recorded.faulted_bad fault view
    refine heldFrom_faulted (eachLane_deliverRound_faulted (v := endTransaction v) state ?_) view
    rw [h.records]
    exact bad

end Sys2Proof.Machine
end


section
/-! PROOF. The last transaction of a round, and a stuck sensor bus: the records of the channels, and the end of the round (R2 to R13). -/

namespace Sys2Proof.Machine

/-! ## What the recording of a transaction leaves -/

/-- What a channel's record and its report leave: the Shock Monitor, the table, the counts of settlements, and no new DISTURB. -/
structure State.RecordsOn (t s : State) : Prop where
  shock : t.shock = s.shock
  peers : t.peers = s.peers
  shape : ∀ n, QueueShape n s.queue → QueueShape n t.queue
  disturbs : ∀ x ∈ t.queue, x.body.identity = .disturb → x ∈ s.queue
  bounded : CountersBounded s → CountersBounded t
  settled : t.station.counters.unitsPicked = s.station.counters.unitsPicked ∧ t.station.counters.unitsPut = s.station.counters.unitsPut
    ∧ t.station.counters.doubtfulSettlements = s.station.counters.doubtfulSettlements

namespace State.RecordsOn

variable {s t u : State}

theorem refl (s : State) : s.RecordsOn s := ⟨rfl, rfl, fun _ h => h, fun _ h _ => h, id, rfl, rfl, rfl⟩

theorem trans (h : u.RecordsOn t) (k : t.RecordsOn s) : u.RecordsOn s := by
  obtain ⟨hp, hq, hd⟩ := h.settled
  obtain ⟨kp, kq, kd⟩ := k.settled
  exact ⟨h.shock.trans k.shock, h.peers.trans k.peers, fun n x => h.shape n (k.shape n x),
    fun x hx hi => k.disturbs x (h.disturbs x hx hi) hi, h.bounded ∘ k.bounded, hp.trans kp, hq.trans kq, hd.trans kd⟩

end State.RecordsOn

theorem KeepsDisturb.reportChannel (c : ChannelNo) (before after : ChannelState) (s : State) :
    KeepsDisturb (reportChannel c before after s) s := by
  unfold Machine.reportChannel
  split
  · refine foldl_relates KeepsDisturb refl trans _ (fun s l => ?_) _ _
    unfold Machine.laneFaults
    split
    · exact changeLane l _ s
    · exact refl s
  · split
    · exact foldl_relates KeepsDisturb refl trans _ (fun s l => testFault l s) _ _
    · exact refl s

theorem changeChannel_recordsOn (c : ChannelNo) (f : Channel → Channel) (s : State) : (changeChannel c f s).RecordsOn s := by
  have told : (changeChannel c f s).LanesTold (s.updateChannel c f) := State.LanesTold.reportChannel c _ _ _
  have counter (g : Counters → Nat) (hg : ∀ n, g (apartFromQueue n) = g n) :
      g (changeChannel c f s).station.counters = g s.station.counters := by
    have same := congrArg g told.counters
    rw [hg, hg] at same
    exact same
  exact ⟨told.shock, told.agrees.peers, queueShape_bus.changeChannel c f s,
    (KeepsDisturb.reportChannel c _ _ (s.updateChannel c f)).comes, countersBounded_bus.changeChannel c f s,
    counter Counters.unitsPicked fun _ => rfl, counter Counters.unitsPut fun _ => rfl, counter Counters.doubtfulSettlements fun _ => rfl⟩

theorem countFailure_recordsOn (s : State) : (s.count .sensorFailures 1).RecordsOn s :=
  ⟨rfl, rfl, fun _ h => h, fun _ h _ => h, count_bounded _ _, rfl, rfl, rfl⟩

theorem recordFailure_recordsOn (c : ChannelNo) (s : State) : (recordFailure c s).RecordsOn s :=
  (changeChannel_recordsOn c _ _).trans (countFailure_recordsOn s)

theorem seedFrom_recordsOn (raw : Int) (s : State) : (seedFrom raw s).RecordsOn s := by
  unfold seedFrom
  split
  · exact .refl s
  · exact ⟨rfl, rfl, fun _ h => h, fun _ h _ => h, id, rfl, rfl, rfl⟩

theorem passTime_shape (e : Nat) {s : State} {n : Nat} (h : QueueShape n s.queue) : QueueShape n (passTime e s).queue := by
  unfold passTime
  dsimp only
  split
  · exact h.busySeen _
  · exact h

/-! ## Channel records and the lanes that they fault (R9, R10, R56) -/

theorem Channel.fail_faulted {c : Channel} (h : c.state = .faulted) : c.fail.state = .faulted := by
  unfold Channel.fail
  rw [h]

theorem Channel.fail_not_ok (c : Channel) : c.fail.state ≠ .ok := by
  unfold Channel.fail
  cases h : c.state with
  | idle =>
    intro k
    rw [h] at k
    cases k
  | ok => exact fun k => (nomatch k)
  | suspect =>
    dsimp only
    split <;> exact fun k => (nomatch k)
  | faulted =>
    intro (k : ChannelState.faulted = .ok)
    cases k

theorem Channel.good_faulted {c : Channel} {sample : Sample} (h : (c.good sample).state = .faulted) : c.state = .faulted := by
  unfold Channel.good at h
  cases hs : c.state with
  | faulted => rfl
  | idle => rw [hs] at h; cases hs.symm.trans h
  | ok =>
    rw [hs] at h
    have k : ChannelState.ok = .faulted := h
    cases k
  | suspect => rw [hs] at h; cases h

theorem told_congr {now : Time} {c : ChannelNo} {before after : Eight Channel} {a b : Lane} (h : a.laneView = b.laneView) :
    (a.told now c before after).laneView = (b.told now c before after).laneView := by
  unfold Lane.told
  rw [laneView_weighing h]
  split_ifs
  · exact toldFaulted_congr h
  · exact toldOk_congr h
  · exact h
  · exact h

/-- A lane after failures of the round's channels: in FAULT where one of its channels has become FAULTED. -/
def Lane.afterFailures (now : Time) (before channels : Eight Channel) (lane : Lane) : Lane :=
  if lane.faultsBy before channels then lane.enterFault now else lane

/-- A further failure, of a channel that has not been served, faults the lane or leaves it. -/
theorem afterFailures_next {now : Time} {c : ChannelNo} {before channels : Eight Channel} {lane a : Lane}
    (fresh : channels.get c = before.get c) (view : a.laneView = (lane.afterFailures now before channels).laneView) :
    (a.told now c channels (channels.set c (channels.get c).fail)).laneView
      = (lane.afterFailures now before (channels.set c (channels.get c).fail)).laneView := by
  let after := channels.set c (channels.get c).fail
  have here : after.get c = (channels.get c).fail := Eight.get_set_same _ _ _
  have other (d : ChannelNo) (h : d ≠ c) : after.get d = channels.get d := Eight.get_set_other _ _ h
  have recovers : ¬ ((channels.get c).state = .faulted ∧ (after.get c).state = .ok) := by
    rw [here]
    exact fun k => Channel.fail_not_ok _ k.2
  refine (told_congr view).trans ?_
  by_cases old : lane.faultsBy before channels
  · obtain ⟨h0, h5, d, hd, hb, hf⟩ := id old
    have new : lane.faultsBy before after := by
      refine ⟨h0, h5, d, hd, hb, ?_⟩
      by_cases e : d = c
      · rw [e, here]
        exact Channel.fail_faulted (e ▸ hf)
      · rw [other d e]
        exact hf
    have faulted : (lane.enterFault now).toldFaulted now = lane.enterFault now := if_neg (show ¬ LaneState.fault.faults = true by decide)
    unfold Lane.afterFailures
    rw [if_pos old, if_pos new, Lane.told, if_neg recovers, faulted, ite_self, ite_self]
  · unfold Lane.afterFailures
    rw [if_neg old, Lane.told, if_neg recovers]
    by_cases new : lane.faultsBy before after
    · obtain ⟨h0, h5, d, hd, hb, hf⟩ := id new
      have e : d = c := by
        by_contra e
        rw [other d e] at hf
        exact old ⟨h0, h5, d, hd, hb, hf⟩
      subst e
      rw [if_pos new, if_pos hd, if_pos ⟨fresh ▸ hb, hf⟩, Lane.toldFaulted, if_pos ((faults_iff _).mpr ⟨h0, h5⟩)]
    · rw [if_neg new]
      split
      · next hc =>
        split
        · next reports =>
          rw [Lane.toldFaulted, if_neg]
          intro k
          obtain ⟨h0, h5⟩ := (faults_iff _).mp k
          exact new ⟨h0, h5, c, hc, fresh ▸ reports.1, reports.2⟩
        · rfl
      · rfl

/-! ## Failures of several channels -/

/-- The state in which channels of the round have failed. -/
structure State.Failing (e : Nat) (s x : State) : Prop where
  handed : Handed e s x
  engine : x.engine = { s.engine with channels := x.engine.channels }
  idle : ∀ c, (x.engine.channels.get c).state = .idle ↔ (s.engine.channels.get c).state = .idle
  records : x.RecordsOn (passTime e s)
  lanes : ∀ l, (x.lane l).laneView = ((s.lane l).afterFailures (at' e s) s.engine.channels x.engine.channels).laneView

theorem State.Failing.start (e : Nat) (s : State) : s.Failing e (passTime e s) := by
  refine ⟨.passed e s, rfl, fun _ => Iff.rfl, .refl _, fun l => ?_⟩
  have none : ¬ (s.lane l).faultsBy s.engine.channels s.engine.channels := fun ⟨_, _, _, _, hb, hf⟩ => hb hf
  unfold Lane.afterFailures
  rw [passTime_engine, if_neg none]
  rfl

theorem recordFailure_channels (c : ChannelNo) (x : State) :
    (recordFailure c x).engine = { x.engine with channels := x.engine.channels.set c (x.engine.channels.get c).fail } :=
  (State.LanesTold.reportChannel c _ _ _).agrees.engine

theorem State.Failing.next {e : Nat} {s x : State} {c : ChannelNo} (h : s.Failing e x)
    (fresh : x.engine.channels.get c = s.engine.channels.get c) : s.Failing e (recordFailure c x) := by
  have engine := recordFailure_channels c x
  have now : x.now = at' e s := h.handed.now
  have counted : Handed e s (x.count .sensorFailures 1) := h.handed.quiet (count_noted .sensorFailures 1 x).quiet
  refine ⟨counted.changeChannel (fun l hc reports faults => ?_) (fun l _ recovers => absurd recovers.2 (Channel.fail_not_ok _)), ?_,
    fun d => ?_, (recordFailure_recordsOn c x).trans h.records, fun l => ?_⟩
  · have view := h.lanes l
    unfold Lane.afterFailures at view
    split at view
    · have state : (x.lane l).service.state = .fault := (laneView_state view).trans rfl
      rw [show ((x.count .sensorFailures 1).lane l).service.state = .fault from state] at faults
      cases faults
    · exact (laneView_alike view).symm
  · rw [engine, h.engine]
  · rw [engine]
    dsimp only
    by_cases k : d = c
    · subst k
      rw [Eight.get_set_same]
      exact (Channel.fail_idle _).trans (h.idle d)
    · rw [Eight.get_set_other _ _ k]
      exact h.idle d
  · refine (changeChannel_lane c Channel.fail (x.count .sensorFailures 1) l).trans ?_
    rw [engine]
    change ((x.lane l).told x.now c x.engine.channels (x.engine.channels.set c (x.engine.channels.get c).fail)).laneView = _
    rw [now]
    exact afterFailures_next fresh (h.lanes l)

theorem State.Failing.all {e : Nat} {s : State} {failing : List ChannelNo} (nodup : failing.Nodup) :
    s.Failing e (failing.foldl (fun t c => recordFailure c t) (passTime e s)) := by
  refine foldl_turns (P := s.Failing e) (Q := fun c x => x.engine.channels.get c = s.engine.channels.get c)
    (f := fun t c => recordFailure c t) (fun c x h fresh => h.next fresh) (fun a b x ne _ _ fresh => ?_) nodup (.start e s) fun _ _ => rfl
  rw [recordFailure_channels]
  exact (Eight.get_set_other _ _ ne).trans fresh

/-- The records of the channels after the failures. -/
theorem failures_channels {failing : List ChannelNo} (nodup : failing.Nodup) (x : State) (d : ChannelNo) :
    (failing.foldl (fun t c => recordFailure c t) x).engine.channels.get d
      = if d ∈ failing then (x.engine.channels.get d).fail else x.engine.channels.get d := by
  induction failing generalizing x with
  | nil => rfl
  | cons c failing ih =>
    obtain ⟨hc, nodup⟩ := List.nodup_cons.mp nodup
    rw [List.foldl_cons, ih nodup, recordFailure_channels]
    dsimp only
    by_cases k : d = c
    · subst k
      rw [if_neg hc, if_pos List.mem_cons_self, Eight.get_set_same]
    · rw [Eight.get_set_other _ _ k]
      exact if_congr (by rw [List.mem_cons, or_iff_right k]) rfl rfl

theorem changeChannel_sensorFailures (c : ChannelNo) (f : Channel → Channel) (x : State) :
    (changeChannel c f x).station.counters.sensorFailures = x.station.counters.sensorFailures :=
  sensorFailures_apart (State.LanesTold.reportChannel c _ _ (x.updateChannel c f)).counters

theorem changeChannel_seed (c : ChannelNo) (f : Channel → Channel) (x : State) : (changeChannel c f x).station.seed = x.station.seed :=
  (State.LanesTold.reportChannel c _ _ (x.updateChannel c f)).seed

theorem recordFailure_sensorFailures (c : ChannelNo) (x : State) :
    (recordFailure c x).station.counters.sensorFailures = min (x.station.counters.sensorFailures + 1) 65535 :=
  changeChannel_sensorFailures c _ _

/-- Each failure is counted (R4). -/
theorem failures_sensorFailures {failing : List ChannelNo} (some' : failing ≠ []) (x : State) :
    (failing.foldl (fun t c => recordFailure c t) x).station.counters.sensorFailures
      = min (x.station.counters.sensorFailures + failing.length) 65535 := by
  induction failing generalizing x with
  | nil => exact absurd rfl some'
  | cons c failing ih =>
    rw [List.foldl_cons, List.length_cons]
    cases failing with
    | nil => exact recordFailure_sensorFailures c x
    | cons d failing =>
      rw [ih (List.cons_ne_nil d failing), recordFailure_sensorFailures]
      omega

theorem recordFailure_seed (c : ChannelNo) (x : State) : (recordFailure c x).station.seed = x.station.seed :=
  changeChannel_seed c _ _

/-- The failures stand recorded. -/
theorem State.Failing.recorded {e : Nat} {s x v : State} (h : s.Failing e x) (quiet : v.Quiet x) (engine : v.engine = x.engine)
    (lanes : v.lanes = x.lanes) (records : v.RecordsOn x) : s.Recorded e x.engine.channels v := by
  have all := records.trans h.records
  have lane (l : LaneNo) : v.lane l = x.lane l := congrArg (Four.get · l) lanes
  refine ⟨h.handed.quiet quiet, engine.trans h.engine, h.idle, all.shock, all.peers, fun l k => ?_, fun l k => Or.inl ?_,
    fun n k => all.shape n (passTime_shape e k), fun x hx hi => ?_, fun k => all.bounded k, all.settled⟩
  · rw [lane, h.lanes, Lane.afterFailures, if_pos k]
  · rw [lane, h.lanes, Lane.afterFailures, if_neg k]
  · obtain ⟨y, hy, same⟩ := (passTime_remarked e s).mem_inv (all.disturbs x hx hi)
    exact ⟨y, hy, same.body.symm, same.enqueued.symm⟩

/-- A good sample stands recorded (R9, R10, R57). -/
theorem good_recorded (e : Nat) (c : ChannelNo) (sample : Sample) (s : State) :
    s.Recorded e (s.engine.channels.set c ((s.engine.channels.get c).good sample))
      (changeChannel c (Channel.good sample) (seedFrom sample.raw (passTime e s))) := by
  let u := seedFrom sample.raw (passTime e s)
  have noted : u.Noted (passTime e s) := seedFrom_noted _ _
  have all := (changeChannel_recordsOn c (Channel.good sample) u).trans (seedFrom_recordsOn sample.raw (passTime e s))
  have alike (l : LaneNo) : (s.lane l).Alike (u.lane l) := noted.quiet.alike l
  have start : Handed e s u := (Handed.passed e s).quiet noted.quiet
  let after := s.engine.channels.set c ((s.engine.channels.get c).good sample)
  have here : after.get c = (s.engine.channels.get c).good sample := Eight.get_set_same _ _ _
  have never (d : ChannelNo) (hf : (after.get d).state = .faulted) : (s.engine.channels.get d).state = .faulted := by
    by_cases k : d = c
    · subst k
      rw [here] at hf
      exact Channel.good_faulted hf
    · rw [Eight.get_set_other _ _ k] at hf
      exact hf
  have none (l : LaneNo) : ¬ (s.lane l).faultsBy s.engine.channels after := fun ⟨_, _, d, _, hb, hf⟩ => hb (never d hf)
  refine ⟨start.changeChannel (fun l _ _ _ => alike l) fun l _ _ => alike l, ?_, fun d => ?_, all.shock, all.peers,
    fun l k => absurd k (none l), fun l _ => ?_, fun n k => all.shape n (passTime_shape e k), fun x hx hi => ?_, fun k => all.bounded k,
    all.settled⟩
  · refine (State.LanesTold.reportChannel c _ _ _).agrees.engine.trans ?_
    change { u.engine with channels := u.engine.channels.set c ((u.engine.channels.get c).good sample) } = _
    rw [noted.engine]
    rfl
  · by_cases k : d = c
    · subst k
      rw [Eight.get_set_same]
      exact Channel.good_idle sample _
    · rw [Eight.get_set_other _ _ k]
  · have lane : u.lane l = s.lane l := congrArg (Four.get · l) noted.lanes
    have view : ((changeChannel c (Channel.good sample) u).lane l).laneView
        = ((s.lane l).told (at' e s) c s.engine.channels after).laneView := by
      rw [changeChannel_lane, lane, noted.quiet.sees.now, noted.engine]
      rfl
    unfold Lane.told at view
    split at view
    · rw [if_neg fun k => k.1 (never c k.2)] at view
      split at view
      · unfold Lane.toldOk at view
        split at view
        · next ok => exact Or.inr ⟨ok, view⟩
        · exact Or.inl view
      · exact Or.inl view
    · exact Or.inl view
  · obtain ⟨y, hy, same⟩ := (passTime_remarked e s).mem_inv (all.disturbs x hx hi)
    exact ⟨y, hy, same.body.symm, same.enqueued.symm⟩

/-! ## What the delivery leaves of Station Control -/

theorem settlementArrives_sensorFailures (l : LaneNo) (level : Int) (isOver : Bool) (x : State) :
    (settlementArrives l level isOver x).station.counters.sensorFailures = x.station.counters.sensorFailures := by
  cases h : (x.lane l).service.state.takesUp with
  | false => rw [settlementArrives_ignored h]
  | true =>
    rw [settlementArrives_taken h]
    obtain ⟨_, _, is, -, same⟩ := settlementCounted_eq l (settlement (x.laneSettings l) (x.lane l).counter level isOver) x
    refine (sensorFailures_apart (State.LanesTold.changeLane l _ _).counters).trans ?_
    rw [is]
    exact same

theorem deliverRound_sensorFailures (l : LaneNo) (x : State) :
    (deliverRound l x).station.counters.sensorFailures = x.station.counters.sensorFailures := by
  have tested := sensorFailures_apart (State.LanesTold.testFault l x).counters
  cases hg : grossSample x.engine.channels (x.atTurn l) with
  | none =>
    rw [deliverRound_none hg]
    exact tested
  | some g =>
    by_cases k : x.Shocks l g
    · rw [deliverRound_shock k, shockSample_eq]
      refine Eq.trans ?_ tested
      change (disturbOffer (applyCandidate _ _)).station.counters.sensorFailures = _
      have candidate (c : Time) (y : State) : (applyCandidate c y).station = y.station := by
        rcases applyCandidate_cases c y with h | h <;> rw [h]
        rfl
      rw [← candidate ((testFault l x).now.addMs (testFault l x).shock.holdMs) (testFault l x)]
      unfold disturbOffer
      split
      · exact sensorFailures_apart (offer_agrees _ _).aisle.counters
      · rfl
    · rw [deliverRound_quiet hg k]
      refine Eq.trans ?_ tested
      obtain ⟨stays, arrives⟩ := quietSample_settles l g (testFault l x)
      cases hr : ((testFault l x).settles l g).2 with
      | none =>
        rw [stays hr]
        rfl
      | some f =>
        rw [arrives f hr]
        exact settlementArrives_sensorFailures l f.grams f.isOver _

/-- The end of a round leaves the count of failures, the seed and the flags. -/
theorem endRound_station {d : Bool} {v : State} (h : v.channelsFrom 0 ≠ []) :
    (endRound d v).station.counters.sensorFailures = v.station.counters.sensorFailures
      ∧ (endRound d v).station.seed = v.station.seed ∧ (endRound d v).station.flags = v.station.flags
      ∧ (endRound d v).station.notes.flags = v.station.notes.flags := by
  obtain ⟨first, others, same⟩ := List.exists_cons_of_ne_nil h
  obtain ⟨after, ends, -⟩ := endRound_engine (d := d) same
  have agrees : (eachLane deliverRound (endTransaction v)).AgreesButLanes (endTransaction v) := eachLane_agreesLanes deliverRound_agreesLanes _
  rw [ends]
  refine ⟨?_, agrees.view fun x : State => x.station.seed, agrees.flags, agrees.noteFlags⟩
  exact foldl_relates (fun t s : State => t.station.counters.sensorFailures = s.station.counters.sensorFailures) (fun _ => rfl)
    Eq.trans _ (fun s l => deliverRound_sensorFailures l s) _ _

end Sys2Proof.Machine
end


section
/-! PROOF. How a round ends: after its last transaction, and on a stuck sensor bus (R2, R5, R12). -/

namespace Sys2Proof.Machine

/-! ## The channels of a round -/

theorem channelsFrom_nodup (s : State) (n : Nat) : (s.channelsFrom n).Nodup := List.Nodup.filter _ (by decide : allChannels.Nodup)

theorem mem_allChannels (c : ChannelNo) : c ∈ allChannels := by
  revert c
  decide

theorem mem_channelsFrom {s : State} {n : Nat} {c : ChannelNo} : c ∈ s.channelsFrom n ↔ n ≤ c.val ∧ s.configured c = true := by
  unfold State.channelsFrom
  rw [List.mem_filter, and_iff_right (mem_allChannels c), Bool.and_eq_true, decide_eq_true_eq]

/-- In an ascending list, the items from `c` on are `c` and those after it. -/
theorem filter_from {n : Nat} {l : List (Fin n)} (sorted : l.Pairwise (· < ·)) {c : Fin n} (hc : c ∈ l) {test : Fin n → Bool}
    (ht : test c = true) : (l.filter fun x => decide (c.val ≤ x.val) && test x)
      = c :: l.filter fun x => decide (c.val + 1 ≤ x.val) && test x := by
  induction l with
  | nil => cases hc
  | cons a l ih =>
    obtain ⟨least, sorted⟩ := List.pairwise_cons.mp sorted
    rcases List.mem_cons.mp hc with rfl | hc
    · have rest : (l.filter fun x => decide (c.val ≤ x.val) && test x) = l.filter fun x => decide (c.val + 1 ≤ x.val) && test x := by
        refine List.filter_congr fun x hx => ?_
        have above : c.val < x.val := least x hx
        rw [decide_eq_true above.le, decide_eq_true (Nat.succ_le_of_lt above)]
      rw [List.filter_cons_of_pos (by simp [ht]), List.filter_cons_of_neg (by simp), rest]
    · have below : a.val < c.val := least c hc
      have first : ¬ (decide (c.val ≤ a.val) && test a) = true := by rw [decide_eq_false (Nat.not_le.mpr below)]; exact Bool.false_ne_true
      have second : ¬ (decide (c.val + 1 ≤ a.val) && test a) = true := by
        rw [decide_eq_false fun k => Nat.not_le.mpr below (Nat.le_of_succ_le k)]
        exact Bool.false_ne_true
      rw [List.filter_cons, if_neg first, List.filter_cons, if_neg second, ih sorted hc]

theorem channelsFrom_self {s : State} {c : ChannelNo} (h : s.configured c = true) :
    s.channelsFrom c.val = c :: s.channelsFrom (c.val + 1) :=
  filter_from (by decide : allChannels.Pairwise (· < ·)) (mem_allChannels c) h

theorem round_nonempty {s : State} {c : ChannelNo} (h : s.configured c = true) : s.channelsFrom 0 ≠ [] := fun k => by
  have mem : c ∈ s.channelsFrom 0 := mem_channelsFrom.mpr ⟨Nat.zero_le _, h⟩
  rw [k] at mem
  cases mem

theorem State.Recorded.nonempty {e : Nat} {channels : Eight Channel} {s v : State} (h : s.Recorded e channels v)
    (configured : s.channelsFrom 0 ≠ []) : v.channelsFrom 0 ≠ [] := by
  have same : v.channelsFrom 0 = s.channelsFrom 0 := by
    refine channelsFrom_congr fun c _ => ?_
    rw [h.engine]
    exact h.idle c
  rw [same]
  exact configured

/-! ## A round that ends in failures -/

section
variable {e : Nat} {d : Bool} {s : State} {failing : List ChannelNo} (nodup : failing.Nodup) (some' : failing ≠ [])
  (configured : s.channelsFrom 0 ≠ [])
include nodup some' configured

/-- The state in which the channels have failed, one after another. -/
abbrev State.failed (e : Nat) (s : State) (failing : List ChannelNo) : State := failing.foldl (fun t c => recordFailure c t) (passTime e s)

theorem failures_end : RoundEnds d (s.failed e failing).engine.channels e s (keepUp (endRound d (s.failed e failing)))
    ∧ (endRound d (s.failed e failing)).station.counters.sensorFailures
      = min (s.station.counters.sensorFailures + failing.length) 65535
    ∧ (endRound d (s.failed e failing)).station.seed = (s.failed e failing).station.seed := by
  have recorded := (State.Failing.all (e := e) (s := s) nodup).recorded (.refl _) rfl rfl (.refl _)
  obtain ⟨counter, seed, -⟩ := endRound_station (d := d) (recorded.nonempty configured)
  exact ⟨endRound_ends recorded configured, counter.trans (failures_sensorFailures some' _), seed⟩

/-- With the bus stuck the fault is latched as well (R2, R5). -/
theorem stuckRound_ends : RoundEnds d (s.failed e failing).engine.channels e s (keepUp (stuckRound failing d (passTime e s)))
    ∧ (stuckRound failing d (passTime e s)).station.flags.sensorBusFault = true
    ∧ (stuckRound failing d (passTime e s)).station.notes.flags.sensorBusFault = true
    ∧ (stuckRound failing d (passTime e s)).station.counters.sensorFailures
      = min (s.station.counters.sensorFailures + failing.length) 65535 := by
  let v := (s.failed e failing).latch .sensorBusFault
  have quiet : v.Quiet (s.failed e failing) := ⟨⟨rfl, rfl, rfl, rfl, rfl⟩, rfl, fun l => .refl ((s.failed e failing).lane l), fun _ h => h⟩
  have recorded := (State.Failing.all (e := e) (s := s) nodup).recorded quiet rfl rfl
    ⟨rfl, rfl, fun _ h => h, fun _ h _ => h, id, rfl, rfl, rfl⟩
  obtain ⟨counter, -, flags, notes⟩ := endRound_station (d := d) (recorded.nonempty configured)
  exact ⟨endRound_ends recorded configured, congrArg Flags.sensorBusFault flags, congrArg Flags.sensorBusFault notes,
    counter.trans (failures_sensorFailures some' _)⟩

end

/-- The records after the failures of the channels from `c` on: the other channels of higher number are IDLE. -/
theorem failed_channels (e : Nat) (s : State) (c : ChannelNo) : (s.failed e (s.channelsFrom c.val)).engine.channels
    = Eight.of fun x => if c ≤ x then (s.engine.channels.get x).fail else s.engine.channels.get x := by
  refine Eight.ext_get fun x => ?_
  rw [failures_channels (channelsFrom_nodup s _), Eight.get_of, passTime_engine]
  by_cases h : c ≤ x
  · rw [if_pos h]
    by_cases k : s.configured x = true
    · exact if_pos (mem_channelsFrom.mpr ⟨h, k⟩)
    · rw [if_neg fun m => k (mem_channelsFrom.mp m).2]
      have idle : (s.engine.channels.get x).state = .idle := by
        unfold State.configured at k
        rw [decide_eq_true_eq, not_not] at k
        exact k
      unfold Channel.fail
      rw [idle]
  · rw [if_neg h, if_neg fun m => h (mem_channelsFrom.mp m).1]

theorem failed_one (e : Nat) (s : State) (c : ChannelNo) :
    (s.failed e [c]).engine.channels = s.engine.channels.set c (s.engine.channels.get c).fail := by
  change (recordFailure c (passTime e s)).engine.channels = _
  rw [recordFailure_channels]
  rfl

/-! ## The last transaction -/

theorem nextChannel_ends {c : ChannelNo} {d : Bool} {v s : State} (last : s.channelsFrom (c.val + 1) = [])
    (others : ∀ x, x ≠ c → v.engine.channels.get x = s.engine.channels.get x) : nextChannel c d v = endRound d v := by
  have none : v.channelsFrom (c.val + 1) = [] := by
    rw [← last]
    refine channelsFrom_congr fun x hx => ?_
    rw [others x fun k => by rw [k] at hx; exact Nat.not_succ_le_self _ hx]
  unfold nextChannel
  rw [none]

theorem exec_busHeld {e : Nat} {d : Bool} {c : ChannelNo} {failedAt : Time} {s : State} (awake : Awake s) (configured : s.configured c = true)
    (ht : s.engine.transaction = some ⟨.channel c, .stretched failedAt⟩) (hd : (failedAt.addMs 2).notAfter (at' e s) = true) :
    exec (.busHeld e d) s = .next (keepUp (stuckRound (s.channelsFrom c.val) d (passTime e s))) := by
  refine exec_timed rfl awake ?_
  rw [passTime_engine, ht, channelsFrom_self configured]
  exact if_pos hd

/-- Settles O14, by the transaction's end; each is the failure of one channel or its good sample, with the delivery after it. -/
theorem lastTransactionEndsTheRound : Obligations.LastTransactionEndsTheRound := by
  intro e dh c s awake last configured before ended
  have round := round_nonempty configured
  have failed := failures_end (e := e) (d := dh) (s := s) (List.nodup_singleton c) (List.cons_ne_nil c []) round
  rw [failed_one] at failed
  obtain ⟨failEnds, failCount, failSeed⟩ := failed
  rw [show (s.failed e [c]).station.seed = s.station.seed from recordFailure_seed c _] at failSeed
  have fails : nextChannel c dh (recordFailure c (passTime e s)) = endRound dh (s.failed e [c]) :=
    nextChannel_ends last fun x ne => by
      rw [recordFailure_channels]
      exact Eight.get_set_other _ _ ne
  refine ⟨fun since result ht => ?_, fun failedAt ht hd => ?_, fun failedAt ht hd => ?_⟩
  · have failing (failure : EndsInFailure result) (is : before.ended result = before.fail) (seeds : s.station.seedAfter result = s.station.seed) :
        ∃ t, exec (.converterTransactionComplete e result dh) s = .next t ∧ ended (before.ended result) t
          ∧ (EndsInFailure result → t.station.counters.sensorFailures = min (s.station.counters.sensorFailures + 1) 65535)
          ∧ (¬ EndsInFailure result → t.station.counters.sensorFailures = s.station.counters.sensorFailures)
          ∧ t.station.seed = s.station.seedAfter result := by
      refine ⟨_, exec_transactionComplete awake ht, ?_⟩
      rw [recordEnd_failure failure, fails, is, seeds]
      exact ⟨failEnds, fun _ => failCount, fun k => absurd failure k, failSeed⟩
    cases result with
    | notAcknowledged => exact failing (Or.inl rfl) rfl rfl
    | bytesRead status high middle low =>
      cases ready : status.getLsbD 7 with
      | false =>
        exact failing (Or.inr ⟨status, high, middle, low, rfl, ready⟩) (if_neg (by rw [ready]; exact Bool.false_ne_true))
          (if_neg fun k => by rw [ready] at k; cases k.1)
      | true =>
        let sample : Sample := ⟨signed24 high middle low, status.getLsbD 6⟩
        let v := changeChannel c (Channel.good sample) (seedFrom sample.raw (passTime e s))
        have recorded : s.Recorded e _ v := good_recorded e c sample s
        have moves : nextChannel c dh v = endRound dh v := nextChannel_ends last fun x ne => by
          rw [recorded.engine]
          exact Eight.get_set_other _ _ ne
        obtain ⟨counter, seed, -⟩ := endRound_station (d := dh) (recorded.nonempty round)
        obtain ⟨fresh, old, same⟩ := seedFrom_seed sample.raw (passTime e s)
        have is : before.ended (.bytesRead status high middle low) = before.good sample := if_pos ready
        refine ⟨_, exec_transactionComplete awake ht, ?_⟩
        rw [recordEnd_good ready, moves, is]
        refine ⟨endRound_ends recorded round, fun failure => ?_, fun _ => ?_, seed.trans ?_⟩
        · rcases failure with k | ⟨status', high', middle', low', k, off⟩
          · cases k
          · injection k with k
            rw [← k, ready] at off
            cases off
        · refine counter.trans ((changeChannel_sensorFailures c _ _).trans ?_)
          exact congrArg Counters.sensorFailures same
        · refine (changeChannel_seed c _ _).trans ?_
          unfold StationControl.seedAfter
          by_cases first : s.station.seed.sample = none
          · exact (fresh first).trans (if_pos ⟨ready, first⟩).symm
          · exact (old first).trans (if_neg fun k => first k.2).symm
  · exact ⟨_, exec_stretchStop awake ht hd, by rw [fails]; exact ⟨failEnds, failCount⟩⟩
  · have one : s.channelsFrom c.val = [c] := by rw [channelsFrom_self configured, last]
    have stuck := stuckRound_ends (e := e) (d := dh) (s := s) (List.nodup_singleton c) (List.cons_ne_nil c []) round
    rw [failed_one] at stuck
    obtain ⟨ends, flags, -, count⟩ := stuck
    refine ⟨_, exec_busHeld awake configured ht hd, ?_⟩
    rw [one]
    exact ⟨ends, count, flags⟩

/-- Settles O16: the channels from the one about to be served on fail, and the round ends. -/
theorem stuckBusEndsTheRound : Obligations.StuckBusEndsTheRound := by
  intro e d c s awake configured failed ended
  have round := round_nonempty configured
  have some' : s.channelsFrom c.val ≠ [] := by
    rw [channelsFrom_self configured]
    exact List.cons_ne_nil _ _
  have stuck (dataHigh : Bool) : ended dataHigh (keepUp (stuckRound (s.channelsFrom c.val) dataHigh (passTime e s))) := by
    have ends := stuckRound_ends (e := e) (d := dataHigh) (s := s) (channelsFrom_nodup s c.val) some' round
    rw [failed_channels] at ends
    exact ends
  refine ⟨fun since ht => ?_, fun since received ht hlen hd => ?_, fun failedAt ht hd => ⟨_, exec_busHeld awake configured ht hd, stuck d⟩⟩
  · refine ⟨_, exec_timed rfl awake ?_, stuck false⟩
    rw [passTime_engine, ht]
    exact if_neg Bool.false_ne_true
  · refine ⟨_, exec_timed_checked rfl (decide_eq_true hlen) awake ?_, stuck d⟩
    rw [passTime_engine, ht]
    exact if_pos hd

end Sys2Proof.Machine
end


section
/-! PROOF. The load's adjustments, and the lanes that form a group (R131, R172, R173). -/

namespace Sys2Proof.Machine

/-! ## Clamped fields (R172) -/

theorem clampTo_ne {low high n : Nat} (h : low ≤ high) : clampTo low high n ≠ n ↔ Illegal low high n := by
  unfold clampTo Illegal
  omega

theorem clampDepth_ne (n : Nat) : clampDepth n ≠ n ↔ n ∉ [1, 2, 4, 8, 16] := by
  simp only [List.mem_cons, List.not_mem_nil, or_false, not_or]
  unfold clampDepth
  split_ifs <;> omega

theorem StationFields.clamped_ne (f : StationFields) : f.clamped ≠ f ↔
    Illegal 0 3 f.sampleRateCode ∨ Illegal 0 1 f.speedCode ∨ f.filterDepth ∉ [1, 2, 4, 8, 16] ∨ Illegal 2 32 f.settleWindow
      ∨ Illegal 10 255 f.reportIntervalS ∨ Illegal 1 60 f.forgetTimeMin ∨ Illegal 3 60 f.repeatUnits
      ∨ Illegal 1 20 f.deferenceUnits ∨ Illegal 1 100 f.holdTime ∨ Illegal 1 120 f.holdLimitMin := by
  rw [← clampTo_ne (n := f.sampleRateCode) (by omega), ← clampTo_ne (n := f.speedCode) (by omega), ← clampDepth_ne,
    ← clampTo_ne (n := f.settleWindow) (by omega), ← clampTo_ne (n := f.reportIntervalS) (by omega),
    ← clampTo_ne (n := f.forgetTimeMin) (by omega), ← clampTo_ne (n := f.repeatUnits) (by omega),
    ← clampTo_ne (n := f.deferenceUnits) (by omega), ← clampTo_ne (n := f.holdTime) (by omega),
    ← clampTo_ne (n := f.holdLimitMin) (by omega)]
  simp only [← not_and_or]
  refine not_congr ?_
  cases f with
  | mk => simp only [StationFields.clamped, StationFields.mk.injEq, true_and, and_true]

theorem ChannelFields.clamped_ne (f : ChannelFields) : f.clamped ≠ f ↔ Illegal 0 127 f.address ∨ Illegal 1 65535 f.gain := by
  rw [← clampTo_ne (n := f.address) (by omega), ← clampTo_ne (n := f.gain) (by omega), ← not_and_or]
  refine not_congr ?_
  cases f with
  | mk => simp only [ChannelFields.clamped, ChannelFields.mk.injEq, true_and]

theorem LaneFields.clamped_ne (f : LaneFields) : f.clamped ≠ f ↔ Illegal 1 255 f.pack ∨ Illegal 1 65535 f.unitWeight
    ∨ Illegal 1 65535 f.band ∨ Illegal 0 8388607 f.tare ∨ Illegal 0 240 f.leadTimeMin := by
  rw [← clampTo_ne (n := f.pack) (by omega), ← clampTo_ne (n := f.unitWeight) (by omega), ← clampTo_ne (n := f.band) (by omega),
    ← clampTo_ne (n := f.tare) (by omega), ← clampTo_ne (n := f.leadTimeMin) (by omega)]
  simp only [← not_and_or]
  refine not_congr ?_
  cases f with
  | mk => simp only [LaneFields.clamped, LaneFields.mk.injEq, true_and]

/-- The block has a field outside its legal values (R172). -/
theorem clampsAnything_iff (block : List Byte) : clampsAnything block = true ↔
    (readStation block).clamped ≠ readStation block ∨ (∃ c, (readChannel block c).clamped ≠ readChannel block c)
      ∨ ∃ l, (readLane block l).clamped ≠ readLane block l := by
  unfold clampsAnything
  simp only [Bool.or_eq_true, decide_eq_true_eq, List.any_eq_true, mem_allChannels, mem_allLanes, true_and, or_assoc]

/-! ## Dropped channels (R173) -/

/-- The run of a lane loses a channel where one lies beyond channel 7 or belongs to an enabled lane of lower number. -/
theorem channelSet_shorter {block : List Byte} {l : LaneNo} (he : (loadedLane block l).enable = true) :
    (channelSet (loadedLane block) l).length < (loadedLane block l).run.length
      ↔ ∃ c, InRun block l c ∧ (7 < c ∨ ∃ m, m < l ∧ InRun block m c) := by
  have run (c : Nat) : c ∈ (loadedLane block l).run ↔ InRun block l c := by
    rw [← mem_loadedRun]
    exact (and_iff_right he).symm
  unfold channelSet
  rw [if_pos he]
  unfold LaneFields.keptRun
  rw [List.length_filter_lt_length_iff_exists]
  refine exists_congr fun c => ?_
  rw [run]
  refine and_congr_right fun _ => ?_
  simp only [Bool.and_eq_true, decide_eq_true_eq, Bool.not_eq_true', List.contains_eq_mem, decide_eq_false_iff_not, mem_takenBelow]
  constructor
  · intro h
    by_contra k
    rw [not_or] at k
    exact h ⟨Nat.le_of_not_lt k.1, fun t => k.2 t.2⟩
  · rintro (h | h) ⟨h7, free⟩
    · omega
    · exact free ⟨h7, h⟩

theorem adjustsSet_iff (block : List Byte) (l : LaneNo) : adjustsSet (loadedAddress block) (loadedLane block) l = true ↔
    (readLane block l).enable = true
      ∧ ((∃ c, InRun block l c ∧ (7 < c ∨ ∃ m, m < l ∧ InRun block m c)) ∨ ∀ c, ¬ WeighsWith block l c) := by
  have channels (c : ChannelNo) : c ∈ weighingChannels (loadedAddress block) (channelSet (loadedLane block) l) ↔ WeighsWith block l c :=
    mem_laneChannels block l c
  unfold adjustsSet
  rw [Bool.and_eq_true]
  refine and_congr_right fun he => ?_
  rw [Bool.or_eq_true, decide_eq_true_eq, channelSet_shorter he, List.isEmpty_iff, List.eq_nil_iff_forall_not_mem]
  simp only [channels]

/-- The load adjusts the block in the cases of R172 and R173. -/
theorem adjusts_iff (block : List Byte) : adjusts block = true ↔ Adjusted block := by
  unfold adjusts Adjusted
  rw [Bool.or_eq_true, clampsAnything_iff, StationFields.clamped_ne]
  simp only [ChannelFields.clamped_ne, LaneFields.clamped_ne, List.any_eq_true, mem_allLanes, true_and, adjustsSet_iff, or_assoc]

/-! ## The lanes that form a group (R131) -/

/-- Two lanes whose settings have the same key and mask. -/
abbrev SameGroup (settings : LaneNo → LaneSettings) (m l : LaneNo) : Prop :=
  (settings m).mask = (settings l).mask ∧ (settings m).article &&& (settings m).mask = (settings l).article &&& (settings l).mask

theorem SameGroup.trans {settings : LaneNo → LaneSettings} {a b c : LaneNo} (h : SameGroup settings a b) (k : SameGroup settings b c) :
    SameGroup settings a c := ⟨h.1.trans k.1, h.2.trans k.2⟩

/-- The lanes that form a group are those before which, in ascending order, none has the same key and mask. -/
theorem formingLanes_eq {settings : LaneNo → LaneSettings} {before found rest : List LaneNo}
    (stands : ∀ l, (∃ f ∈ found, SameGroup settings f l) ↔ ∃ m ∈ before, SameGroup settings m l)
    (sorted : (before ++ rest).Pairwise (· < ·)) :
    formingLanes settings rest found
      = found ++ rest.filter fun l => decide (∀ m ∈ before ++ rest, m < l → ¬ SameGroup settings m l) := by
  induction rest generalizing before found with
  | nil => exact (List.append_nil found).symm
  | cons l rest ih =>
    have shift : before ++ l :: rest = (before ++ [l]) ++ rest := by rw [List.append_assoc, List.singleton_append]
    have below (m : LaneNo) (hm : m ∈ before ++ l :: rest) : m < l ↔ m ∈ before := by
      obtain ⟨-, tail, across⟩ := List.pairwise_append.mp sorted
      refine ⟨fun h => ?_, fun h => across m h l List.mem_cons_self⟩
      rcases List.mem_append.mp hm with hm | hm
      · exact hm
      · rcases List.mem_cons.mp hm with rfl | hm
        · exact absurd h (lt_irrefl m)
        · exact absurd ((List.pairwise_cons.mp tail).1 m hm) (lt_asymm h)
    have forms : (∀ m ∈ before ++ l :: rest, m < l → ¬ SameGroup settings m l) ↔ ¬ ∃ f ∈ found, SameGroup settings f l := by
      rw [stands]
      constructor
      · rintro h ⟨m, hm, k⟩
        exact h m (List.mem_append_left _ hm) ((below m (List.mem_append_left _ hm)).mpr hm) k
      · exact fun h m hm hl k => h ⟨m, (below m hm).mp hl, k⟩
    have asked : (found.any fun f => (settings f).mask == (settings l).mask
        && (settings f).article &&& (settings f).mask == (settings l).article &&& (settings l).mask) = true
        ↔ ∃ f ∈ found, SameGroup settings f l := by
      simp only [List.any_eq_true, Bool.and_eq_true, beq_iff_eq]
    unfold formingLanes
    by_cases known : ∃ f ∈ found, SameGroup settings f l
    · have stands' (k : LaneNo) : (∃ f ∈ found, SameGroup settings f k) ↔ ∃ m ∈ before ++ [l], SameGroup settings m k := by
        rw [stands]
        constructor
        · exact fun ⟨m, hm, h⟩ => ⟨m, List.mem_append_left _ hm, h⟩
        · rintro ⟨m, hm, h⟩
          rcases List.mem_append.mp hm with hm | hm
          · exact ⟨m, hm, h⟩
          · rw [List.mem_singleton] at hm
            subst hm
            obtain ⟨n, hn, same⟩ := (stands m).mp known
            exact ⟨n, hn, same.trans h⟩
      rw [if_pos (asked.mpr known), ih stands' (shift ▸ sorted), List.filter_cons, if_neg, shift]
      rw [decide_eq_true_eq, forms]
      exact fun k => k known
    · have stands' (k : LaneNo) : (∃ f ∈ found ++ [l], SameGroup settings f k) ↔ ∃ m ∈ before ++ [l], SameGroup settings m k := by
        simp only [List.mem_append, List.mem_singleton, or_and_right, exists_or, exists_eq_left, stands]
      rw [if_neg (mt asked.mp known), ih stands' (shift ▸ sorted), List.filter_cons, if_pos, shift, List.append_assoc, List.singleton_append]
      rw [decide_eq_true_eq, forms]
      exact known

/-- An item of a filtered ascending list stands at the number of items before it that pass. -/
theorem getElem_filter_of_sorted {n : Nat} {items : List (Fin n)} (sorted : items.Pairwise (· < ·)) {test : Fin n → Bool} {l : Fin n}
    (hl : l ∈ items) (ht : test l = true) :
    (items.filter test)[(items.filter fun m => decide (m < l) && test m).length]? = some l := by
  induction items with
  | nil => cases hl
  | cons a items ih =>
    obtain ⟨least, sorted⟩ := List.pairwise_cons.mp sorted
    rcases List.mem_cons.mp hl with rfl | hl
    · have none : (items.filter fun m => decide (m < l) && test m) = [] := by
        refine List.filter_eq_nil_iff.mpr fun m hm => ?_
        rw [decide_eq_false (lt_asymm (least m hm))]
        exact Bool.false_ne_true
      rw [List.filter_cons, if_pos ht, List.filter_cons, if_neg (by simp), none]
      rfl
    · have below : decide (a < l) = true := decide_eq_true (least l hl)
      rw [List.filter_cons, List.filter_cons, below, Bool.true_and]
      split
      · rw [List.length_cons, List.getElem?_cons_succ]
        exact ih sorted hl
      · exact ih sorted hl

end Sys2Proof.Machine
end


section
/-! PROOF. The load: the new groups are evaluated in JOINING, and the round timer gives its first tick (R131, R174). -/

namespace Sys2Proof.Machine

/-! ## Lanes that do not offer (R113) -/

/-- The lanes and Station Control are as they were. -/
def State.Still (t s : State) : Prop := t.lanes = s.lanes ∧ t.station = s.station

namespace State.Still

variable {s t u : State}

theorem refl (s : State) : s.Still s := ⟨rfl, rfl⟩

theorem trans (h : u.Still t) (k : t.Still s) : u.Still s := ⟨h.1.trans k.1, h.2.trans k.2⟩

theorem lane (h : t.Still s) (l : LaneNo) : t.lane l = s.lane l := congrArg (Four.get · l) h.1

end State.Still

/-- No lane offers its report (R113). -/
abbrev State.Silent (s : State) : Prop := ∀ l, (s.lane l).service.state.offers = false

theorem State.Still.silent {t s : State} (h : t.Still s) (k : s.Silent) : t.Silent := fun l => by
  rw [h.lane]
  exact k l

theorem laneOffer_silent {l : LaneNo} {s : State} (h : s.Silent) : laneOffer l s = s :=
  if_neg (by rw [h l, Bool.and_false]; exact Bool.false_ne_true)

theorem announceRoom_still {s : State} (h : s.Silent) : (announceRoom s).Still s := by
  refine foldl_relates (fun t s : State => s.Silent → t.Still s) (fun s _ => .refl s) (fun h k silent => ?_) _
    (fun s l silent => by rw [laneOffer_silent silent]; exact .refl s) _ s.spend h
  exact (h ((k silent).silent silent)).trans (k silent)

theorem withdrawRaise_still {g : GroupNo} {s : State} (h : s.Silent) : (withdrawRaise g s).Still s := by
  unfold withdrawRaise
  dsimp only
  split
  · exact announceRoom_still (s := { s with queue := (markWithdrawn g s.queue).filter fun e => !e.waitingRaise g }) h
  · exact ⟨rfl, rfl⟩

/-- A group as the load forms it: its alert record is CLEAR and no suspending member is known (R131, R146). -/
def Group.IsNew (gr : Group) : Prop := gr.alert.state = .clear ∧ gr.record.suspending = false

/-- In JOINING a CLEAR record is not deferred (R149): the evaluation of a new group suspends it at most. -/
theorem evaluate_new_still {g : GroupNo} {gr : Group} {s : State} (hg : s.group g = some gr) (new : gr.IsNew) (joining : s.joining = true)
    (silent : s.Silent) : (evaluate g s).Still s := by
  obtain ⟨clear, calm⟩ := new
  have recorded : (s.recorded g gr).Still s := ⟨rfl, rfl⟩
  cases hs : (s.judges gr).suspending with
  | true =>
    rw [evaluate_suspends hg calm hs (by rw [clear]; exact fun k => (nomatch k))]
    exact (withdrawRaise_still (s := (s.recorded g gr).updateAlert g Alert.toSuspended) silent).trans ⟨rfl, rfl⟩
  | false =>
    have same : gr.record.suspending = (s.judges gr).suspending := calm.trans hs.symm
    by_cases figures : gr.record.SameFigures (s.judges gr)
    · rw [evaluate_calm_same hg same figures]
      exact recorded
    · rw [evaluate_calm_tests hg same figures clear, (testClear_clear (recorded_group hg) clear).2 (Or.inr joining)]
      exact recorded

theorem evaluate_none {g : GroupNo} {s : State} (h : s.group g = none) : evaluate g s = s := by
  unfold evaluate State.onGroup
  rw [h]

/-- The evaluation of all new groups leaves the lanes, with their reports due, and Station Control. -/
theorem eachGroup_evaluate_still {s : State} (new : ∀ g gr, s.group g = some gr → gr.IsNew) (joining : s.joining = true) (silent : s.Silent) :
    (eachGroup evaluate s).Still s := by
  refine foldl_turns (P := fun x => x.Still s) (Q := fun g x => x.group g = s.group g) (f := fun t g => evaluate g t)
    (s := s.spend) (fun g x still same => ?_)
    (fun a b x ne _ _ same => (evaluate_only a x b ne).trans same)
    ((arrange_perm (Config.freeOrder s.choices) allGroups).nodup_iff.mpr allGroups_nodup) ⟨rfl, rfl⟩ fun _ _ => rfl
  cases hg : x.group g with
  | none =>
    rw [evaluate_none hg]
    exact still
  | some gr =>
    have joins : x.joining = true := by
      unfold State.joining
      rw [still.2]
      exact joining
    exact (evaluate_new_still hg (new g gr (same.symm.trans hg)) joins (still.silent silent)).trans still

/-! ## The first tick (R11, R12, R14) -/

/-- A lane that is OFF takes nothing of a round. -/
theorem deliverRound_off {l : LaneNo} {x : State} (h : (x.lane l).service.state = .off) : deliverRound l x = x := by
  have notFault : ¬ (x.lane l).service.state = .fault := fun k => by
    rw [h] at k
    cases k
  have turn : x.atTurn l = x.lane l := if_neg fun k => notFault k.1
  have none : grossSample x.engine.channels (x.atTurn l) = none := by
    rw [turn]
    unfold grossSample
    rw [h]
    rfl
  rw [deliverRound_none none]
  exact if_neg fun k => notFault k.1

theorem eachLane_deliverRound_off {x : State} (h : ∀ l, (x.lane l).service.state = .off) : eachLane deliverRound x = x.spend := by
  unfold eachLane
  have start (l : LaneNo) : (x.spend.lane l).service.state = .off := h l
  generalize arrange (Config.freeOrder x.choices) allLanes = lanes
  generalize x.spend = y at start
  induction lanes with
  | nil => rfl
  | cons l lanes ih =>
    rw [List.foldl_cons, deliverRound_off (start l)]
    exact ih

/-- The first tick at the load: a round with the first channel that has an address, and none at brown-out or where there is no such
channel. -/
theorem takeTick_first {tick : Time} {d : Bool} {y : State} (rests : y.engine.transaction = none)
    (fresh : ∀ c, (y.engine.channels.get c).result = .none) (off : y.channelsFrom 0 = [] → ∀ l, (y.lane l).service.state = .off) :
    ∃ after choices, takeTick tick d y = { y with engine := after, choices := choices } ∧ after.fastBus = y.engine.fastBus
      ∧ after.roundTimer = some (tick.addUs y.settings.samplePeriodUs) ∧ (∀ c, after.channels.get c = y.engine.channels.get c)
      ∧ (∀ first rest, y.inBrownOut = false → y.channelsFrom 0 = first :: rest →
        after.transaction = some ⟨.channel first, checkedStage y.now d⟩)
      ∧ (y.inBrownOut = true ∨ y.channelsFrom 0 = [] → after.transaction = none) := by
  let timed : Engine := { y.engine with roundTimer := some (tick.addUs y.settings.samplePeriodUs) }
  let x : State := { y with engine := timed }
  have idle : ¬ y.engine.roundRunning = true := by
    unfold Engine.roundRunning
    rw [rests]
    exact Bool.false_ne_true
  cases hb : y.inBrownOut with
  | true =>
    have ticks : takeTick tick d y = x := if_pos hb
    exact ⟨timed, y.choices, ticks, rfl, rfl, fun _ => rfl, fun _ _ k => (nomatch k), fun _ => rests⟩
  | false =>
    have ticks : takeTick tick d y = startRound d x :=
      (if_neg (by rw [hb]; exact Bool.false_ne_true)).trans (if_neg idle)
    have same : x.channelsFrom 0 = y.channelsFrom 0 := channelsFrom_congr fun _ _ => Iff.rfl
    cases hc : y.channelsFrom 0 with
    | nil =>
      have starts : startRound d x = deliverResults x := by
        unfold startRound
        rw [same, hc]
      refine ⟨{ timed with channels := timed.channels.map fun c => { c with result := .none } }, x.spend.choices, ?_, rfl, rfl, fun c => ?_,
        fun _ _ _ k => (nomatch k), fun _ => rests⟩
      · rw [ticks, starts, deliverResults, eachLane_deliverRound_off (x := x) (off hc)]
        rfl
      · rw [Eight.get_map]
        have result := fresh c
        change ({ y.engine.channels.get c with result := .none } : Channel) = _
        rw [← result]
    | cons first rest =>
      have starts : startRound d x = beginTransaction (.channel first) d x := by
        unfold startRound
        rw [same, hc]
      refine ⟨{ timed with transaction := some ⟨.channel first, checkedStage y.now d⟩ }, y.choices, ?_, rfl, rfl, fun _ => rfl,
        fun f r _ k => ?_, fun k => k.elim (fun k => nomatch k) (fun k => nomatch k)⟩
      · rw [ticks, starts]
        rfl
      · injection k with k _
        rw [k]

end Sys2Proof.Machine
end


section
/-! PROOF. The last segment of the configuration read: the attempt fails, the version is refused, or the block is loaded (R16, R171 to R174). -/

namespace Sys2Proof.Machine

/-! ## The loaded state before its groups are evaluated (R174) -/

/-- The state in which every block has taken its settings and the groups are formed. -/
def State.loadedWith (block : List Byte) (v : State) : State :=
  formGroups (loadShock block (loadLanes (configurationFrom block) (loadEngine block (loadStation block v))))

/-- The state in which the flag of an adjusted block is latched (R172, R173). -/
def State.adjustedBy (block : List Byte) (v : State) : State := if adjusts block then v.latch .configAdjusted else v

theorem adjustedBy_eq (block : List Byte) (v : State) :
    ∃ f n, v.adjustedBy block = { v with station := { v.station with flags := f, notes := n } }
      ∧ (f.configAdjusted = true ↔ v.station.flags.configAdjusted = true ∨ Adjusted block) := by
  unfold State.adjustedBy
  rw [← adjusts_iff]
  split
  · next h => exact ⟨_, _, rfl, iff_of_true rfl (Or.inr h)⟩
  · next h => exact ⟨_, _, rfl, ⟨Or.inl, fun k => k.resolve_right h⟩⟩

theorem loadedWith_lane (block : List Byte) (v : State) (l : LaneNo) : (v.loadedWith block).lane l
    = (v.lane l).load ((configurationFrom block).lanes.get l) ((readStation block).clamped.buttonActiveHigh.get l) := Four.get_of _ l

theorem loadedWith_channel (block : List Byte) (v : State) (c : ChannelNo) :
    (v.loadedWith block).engine.channels.get c = Channel.loaded (loadedChannel block c) := Eight.get_of _ c

theorem configured_loaded (block : List Byte) (v : State) (c : ChannelNo) :
    (v.loadedWith block).configured c = decide (loadedAddress block c ≠ 0) := by
  unfold State.configured
  rw [loadedWith_channel]
  refine decide_eq_decide.mpr (not_congr ?_)
  change (if loadedAddress block c = 0 then ChannelState.idle else .ok) = .idle ↔ _
  split
  · next h => exact iff_of_true rfl h
  · next h => exact iff_of_false (fun k => (nomatch k)) h

theorem channelsFrom_loaded (block : List Byte) (v : State) :
    (v.loadedWith block).channelsFrom 0 = allChannels.filter fun c => decide (loadedAddress block c ≠ 0) := by
  unfold State.channelsFrom
  refine List.filter_congr fun c _ => ?_
  rw [configured_loaded, decide_eq_true (Nat.zero_le _), Bool.true_and]

/-- Without an address there is no lane that starts (R173). -/
theorem starts_addressed {block : List Byte} {l : LaneNo} (h : ((configurationFrom block).lanes.get l).starts = true) :
    ∃ c, loadedAddress block c ≠ 0 := by
  have is : (configurationFrom block).lanes.get l = laneSettingsFrom block l := Four.get_of _ l
  rw [is] at h
  unfold LaneSettings.starts at h
  rw [Bool.and_eq_true, Bool.not_eq_true', List.isEmpty_eq_false_iff_exists_mem] at h
  obtain ⟨-, c, hc⟩ := h
  exact ⟨c, ((mem_laneChannels block l c).mp hc).2.1⟩

/-! ## The groups of the load (R131) -/

theorem formingLanes_formsGroup {c : Configuration} {settings : LaneNo → LaneSettings} (hs : ∀ l, settings l = c.lanes.get l) :
    formingLanes settings (allLanes.filter fun l => (c.lanes.get l).starts) [] = allLanes.filter fun l => decide (c.formsGroup l) := by
  have ascending : allLanes.Pairwise (· < ·) := by decide
  have forms := formingLanes_eq (settings := settings) (before := []) (found := []) (rest := allLanes.filter fun l => (c.lanes.get l).starts)
    (fun _ => Iff.rfl) (show (allLanes.filter fun l => (c.lanes.get l).starts).Pairwise (· < ·) from ascending.filter _)
  rw [forms, List.nil_append, List.nil_append, List.filter_filter]
  refine List.filter_congr fun l _ => ?_
  rw [Bool.eq_iff_iff, Bool.and_eq_true, decide_eq_true_eq, decide_eq_true_eq, and_comm]
  refine and_congr_right fun _ => ?_
  simp only [List.mem_filter, mem_allLanes, true_and, SameGroup, hs]
  exact ⟨fun h m hl hm => h m hm hl, fun h m hm hl => h m hl hm⟩

/-- The groups that the load forms. -/
theorem formGroups_group {x : State} {c : Configuration} (hc : x.station.config = some c)
    (states : ∀ l, (x.lane l).service.state = if (c.lanes.get l).starts then .starting else .off) (g : GroupNo) :
    (formGroups x).group g = ((allLanes.filter fun m => decide (c.formsGroup m))[g.val]?).map fun l =>
      ⟨GroupRecord.new l (c.lanes.get l), Alert.new x.now⟩ := by
  have settings (l : LaneNo) : x.laneSettings l = c.lanes.get l := by
    unfold State.laneSettings
    rw [hc]
  have starting : (allLanes.filter fun l => decide ((x.lane l).service.state ≠ .off)) = allLanes.filter fun l => (c.lanes.get l).starts := by
    refine List.filter_congr fun l _ => ?_
    rw [states]
    split
    · next h => rw [h]; rfl
    · next h => rw [Bool.eq_false_iff.mpr h]; rfl
  refine (Four.get_of _ g).trans ?_
  rw [starting, formingLanes_formsGroup settings]
  simp only [settings]

/-- The holders of a group where nothing is known of the peers and no lane is in service or suspending. -/
theorem starting_holders {u : State} (peers : u.peers = [])
    (states : ∀ l, (u.lane l).service.state = .starting ∨ (u.lane l).service.state = .off) (key mask : Word) :
    ∀ h ∈ u.holders key mask, h.state = .starting := by
  rw [holders_eq, peers]
  intro h hh
  rw [List.filter_nil, List.map_nil, List.append_nil] at hh
  obtain ⟨l, hl, rfl⟩ := List.mem_map.mp hh
  exact (states l).resolve_right (of_decide_eq_true (List.mem_filter.mp hl).2).1

theorem new_evaluated {l : LaneNo} {c : LaneSettings} {hs : List Holder} (h : ∀ x ∈ hs, x.state = .starting) :
    (GroupRecord.new l c).evaluated hs = GroupRecord.new l c := by
  have none (x : Holder) (hx : x ∈ hs) : x.isContributor = false := by
    unfold Holder.isContributor
    rw [h x hx]
    rfl
  have contributors : hs.filter Holder.isContributor = [] :=
    List.filter_eq_nil_iff.mpr fun x hx => by rw [none x hx]; exact Bool.false_ne_true
  have aggregate : aggregateOf hs = 0 := by
    unfold aggregateOf
    rw [contributors]
    rfl
  have quality : qualityOf hs = .indeterminate := if_pos (List.any_eq_false.mpr fun x hx => by rw [none x hx]; exact Bool.false_ne_true)
  have suspending : suspendingOf hs = false := by
    refine List.any_eq_false.mpr fun x hx => ?_
    rw [h x hx]
    simp
  unfold GroupRecord.evaluated
  rw [aggregate, quality, suspending]
  rfl

/-! ## The load completes -/

section
variable (block : List Byte) (v : State)

/-- What the load leaves of the lanes before the first tick. -/
theorem loadedWith_states (l : LaneNo) : ((v.loadedWith block).lane l).service.state
    = if ((configurationFrom block).lanes.get l).starts then .starting else .off := by
  rw [loadedWith_lane]
  rfl

theorem loadedWith_group (g : GroupNo) : (v.loadedWith block).group g
    = ((allLanes.filter fun m => decide ((configurationFrom block).formsGroup m))[g.val]?).map fun l =>
      ⟨GroupRecord.new l ((configurationFrom block).lanes.get l), Alert.new v.now⟩ :=
  formGroups_group rfl (loadedWith_states block v) g

/-- The evaluation of the new groups leaves the lanes and Station Control of the load. -/
theorem loadedWith_still : (eachGroup evaluate (v.loadedWith block)).Still (v.loadedWith block) := by
  refine eachGroup_evaluate_still (fun g gr hg => ?_) rfl fun l => ?_
  · rw [loadedWith_group, Option.map_eq_some_iff] at hg
    obtain ⟨l, -, rfl⟩ := hg
    exact ⟨rfl, rfl⟩
  · rw [loadedWith_states]
    split <;> rfl

theorem loadedWith_off (h : (v.loadedWith block).channelsFrom 0 = []) (l : LaneNo) : ((v.loadedWith block).lane l).service.state = .off := by
  rw [channelsFrom_loaded, List.filter_eq_nil_iff] at h
  rw [loadedWith_states, if_neg]
  intro k
  obtain ⟨c, hc⟩ := starts_addressed k
  exact h c (mem_allChannels c) (decide_eq_true hc)

/-- The load, by its blocks. -/
theorem loadCompletes_blocks (d : Bool) :
    let w := (v.adjustedBy block).loadedWith block
    let y := eachGroup evaluate w
    ∃ after choices, loadCompletes block d v = { y with engine := after, choices := choices } ∧ after.fastBus = w.engine.fastBus
      ∧ after.roundTimer = some (v.now.addUs w.settings.samplePeriodUs) ∧ (∀ c, after.channels.get c = w.engine.channels.get c)
      ∧ (∀ first rest, w.inBrownOut = false → w.channelsFrom 0 = first :: rest →
        after.transaction = some ⟨.channel first, checkedStage w.now d⟩)
      ∧ (w.inBrownOut = true ∨ w.channelsFrom 0 = [] → after.transaction = none) := by
  intro w y
  have agrees : y.AgreesButAisle w := eachGroup_agreesAisle evaluate_agrees w
  have still : y.Still w := loadedWith_still block (v.adjustedBy block)
  have channels : y.channelsFrom 0 = w.channelsFrom 0 := channelsFrom_congr fun c _ => by rw [agrees.engine]
  have first := takeTick_first (tick := v.now) (d := d) (y := y) (by rw [agrees.engine]; rfl)
    (fun c => by rw [agrees.engine, loadedWith_channel]; rfl)
    (fun h l => by rw [still.lane]; exact loadedWith_off block (v.adjustedBy block) (channels.symm.trans h) l)
  have brownOut : y.inBrownOut = w.inBrownOut := agrees.lanes.inBrownOut
  rw [agrees.engine, agrees.lanes.settings, channels, brownOut, agrees.now] at first
  exact first

end

/-- The groups of the load are those of the statement. -/
theorem loaded_formsGroups {e : Nat} {block : List Byte} {s w t : State} {v : State} (hw : w = v.loadedWith block) (now : v.now = at' e s)
    (peers : v.peers = s.peers) (groups : t.groups = (eachGroup evaluate w).groups) (sees : t.SeesAs w) (lanes : t.lanes = w.lanes) :
    FormsGroups e (configurationFrom block) s t := by
  subst hw
  let w := v.loadedWith block
  let c := configurationFrom block
  have group (g : GroupNo) : t.group g = (eachGroup evaluate w).group g := congrArg (Four.get · g) groups
  have lane (l : LaneNo) : t.lane l = w.lane l := congrArg (Four.get · l) lanes
  refine ⟨fun l g forms number => ?_, fun g few => ?_⟩
  · have place : (allLanes.filter fun m => decide (c.formsGroup m))[g.val]? = some l := by
      rw [number]
      have at' := getElem_filter_of_sorted (by decide : allLanes.Pairwise (· < ·)) (test := fun m => decide (c.formsGroup m)) (mem_allLanes l)
        (decide_eq_true forms)
      simp only [← Bool.decide_and] at at'
      exact at'
    let gr : Group := ⟨GroupRecord.new l (c.lanes.get l), Alert.new v.now⟩
    have formed : w.group g = some gr := by
      dsimp only [w]
      rw [loadedWith_group, place]
      rfl
    obtain ⟨u, hu, ug, evaluates⟩ := eachGroup_group evaluate_agrees evaluate_only g w
    have there : u.group g = some gr := ug.trans formed
    obtain ⟨done, hdone⟩ := evaluate_group there
    have usees := hu.lanes.sees
    have is : t.group g = some done := (group g).trans (evaluates.trans hdone)
    have own : gr = ⟨GroupRecord.new l (c.lanes.get l), Alert.new (at' e s)⟩ := by rw [← now]
    rw [own] at there
    refine ⟨done, is, ⟨u, there, usees.now.trans now, usees.peers.trans sees.peers.symm, usees.phase.trans sees.phase.symm,
      usees.config.trans sees.config.symm, usees.number.trans sees.number.symm, fun m _ => ?_, hdone⟩, fun none => ?_⟩
    · rw [lane]
      exact ⟨hu.laneState m, congrArg Counter.count (hu.counter m), congrArg Counter.confidence (hu.counter m)⟩
    · have states (m : LaneNo) : (u.lane m).service.state = .starting ∨ (u.lane m).service.state = .off := by
        rw [hu.laneState, loadedWith_states]
        split
        · exact Or.inl rfl
        · exact Or.inr rfl
      have holders := starting_holders (usees.peers.trans (peers.trans none)) states
      let fresh : Group := ⟨GroupRecord.new l (c.lanes.get l), Alert.new (at' e s)⟩
      have judged : u.judges fresh = fresh.record := new_evaluated (holders _ _)
      have calm : evaluate g u = u.recorded g fresh := evaluate_calm_same there (by rw [judged]) (by rw [judged]; exact ⟨rfl, rfl, rfl⟩)
      rw [calm, recorded_group there, judged] at hdone
      exact (Option.some.inj hdone).symm
  · have unformed : w.group g = none := by
      dsimp only [w]
      rw [loadedWith_group, List.getElem?_eq_none few]
      rfl
    obtain ⟨u, -, ug, evaluates⟩ := eachGroup_group evaluate_agrees evaluate_only g w
    have there : u.group g = none := ug.trans unformed
    rw [group, evaluates, evaluate_none there]
    exact there

/-- Settles O9, by the check of the block, its version, and the blocks of the load. -/
theorem lastSegmentEndsTheRead : Obligations.LastSegmentEndsTheRead := by
  intro e bytes d s awake reading hlen hblock tag block config
  let v := (passTime e s).updateStation fun st => { st with block := st.block ++ bytes }
  have goesOn : AttemptGoesOn e s v := ⟨rfl, passTime_remarked e s, rfl, rfl, rfl, rfl, rfl⟩
  have runs : exec (.configSegmentEnd e bytes d) s = .next (keepUp (segmentEnds bytes d (passTime e s))) :=
    exec_timed_checked rfl (decide_eq_true hlen) awake (if_pos reading)
  have number : (passTime e s).station.block.length / 32 = 7 := by
    change s.station.block.length / 32 = 7
    omega
  have last : segmentEnds bytes d (passTime e s) = if blockChecks block then readSucceeds block d v else failAttempt d v := by
    unfold segmentEnds
    dsimp only
    rw [number, if_neg (by rw [tag]; exact fun k => k rfl), if_neg (Nat.lt_irrefl 7)]
    rfl
  have checks : blockChecks block = true ↔ block.drop 254 = checkChars (checkWord (block.take 254)) := decide_eq_true_iff
  refine ⟨_, runs, fun wrong => ?_, fun right version => ?_, fun right version => ?_⟩
  · rw [last, if_neg fun k => wrong (checks.mp k)]
    exact failAttempt_failed goesOn d
  · have refused : readSucceeds block d v = enterConfigFault v := if_neg version
    rw [last, if_pos (checks.mpr right), refused]
    exact ⟨rfl, rfl, rfl⟩
  · have loads : readSucceeds block d v = loadCompletes block d v := if_pos version
    rw [last, if_pos (checks.mpr right), loads]
    let a := v.adjustedBy block
    let w := a.loadedWith block
    let y := eachGroup evaluate w
    obtain ⟨flags, notes, adjusted, latched⟩ := adjustedBy_eq block v
    have agrees : y.AgreesButAisle w := eachGroup_agreesAisle evaluate_agrees w
    have still : y.Still w := loadedWith_still block a
    obtain ⟨after, choices, is, fastBus, timer, channels, begins, rests⟩ := loadCompletes_blocks block v d
    rw [is]
    let t : State := { y with engine := after, choices := choices }
    have station : t.station = w.station := still.2
    have lane (l : LaneNo) : t.lane l = (s.lane l).load (config.lanes.get l) ((readStation block).buttonActiveHigh.get l) := by
      refine (still.lane l).trans ((loadedWith_lane block a l).trans ?_)
      dsimp only [a]
      rw [adjusted]
      rfl
    have record (c : ChannelNo) : t.engine.channels.get c = Channel.loaded (loadedChannel block c) :=
      (channels c).trans (loadedWith_channel block a c)
    have aStation : a.station = { v.station with flags := flags, notes := notes } := by
      dsimp only [a]
      rw [adjusted]
    have aRest : a.peers = s.peers ∧ a.line = s.line ∧ a.now = at' e s ∧ a.inBrownOut = s.inBrownOut := by
      dsimp only [a]
      rw [adjusted]
      exact ⟨rfl, rfl, rfl, rfl⟩
    obtain ⟨peers, line, now, brownOut⟩ := aRest
    have shock : t.shock = w.shock := agrees.shock
    refine ⟨congrArg StationControl.phase station, congrArg StationControl.config station, ?_, ?_, fastBus, fun c => ?_, timer,
      fun first rest high hc => ?_, fun h => rests ?_, fun l => ?_, ?_, ?_, ?_, ?_, ?_, ?_⟩
    · refine (congrArg StationControl.joinTimer station).trans ?_
      change some (⟨a.now, .notOffered⟩ : JoinTimer) = _
      rw [now]
    · have own : t.station.flags = flags := by
        rw [station]
        change a.station.flags = flags
        rw [aStation]
      change t.station.flags.configAdjusted = true ↔ _
      rw [own]
      exact latched
    · change (t.engine.channels.get c).state = _ ∧ (t.engine.channels.get c).address.toNat = _ ∧ (t.engine.channels.get c).register = _
        ∧ (t.engine.channels.get c).zero = _ ∧ (t.engine.channels.get c).gain = _
      rw [record]
      refine ⟨rfl, ?_, rfl, rfl, rfl⟩
      have low : loadedAddress block c ≤ 127 := (clampTo_nearest (Nat.zero_le 127) (readChannel block c).address).2.1
      exact (BitVec.toNat_ofNat _ 7).trans (Nat.mod_eq_of_lt (Nat.lt_succ_of_le low))
    · have goes := begins first rest (brownOut.trans high) ((channelsFrom_loaded block a).trans hc)
      rw [show w.now = at' e s from now] at goes
      exact goes
    · refine h.imp brownOut.trans fun none => ?_
      rw [channelsFrom_loaded]
      exact List.filter_eq_nil_iff.mpr fun c _ k => of_decide_eq_true k (none c)
    · rw [keepUp_lane, lane]
      refine ⟨rfl, rfl, ?_, rfl, rfl⟩
      unfold Lane.load
      dsimp only
      exact if_congr beq_iff_eq rfl rfl
    · exact congrArg ShockMonitor.configured shock
    · exact congrArg ShockMonitor.ownZone shock
    · exact congrArg ShockMonitor.neighbours shock
    · exact congrArg ShockMonitor.holdTime shock
    · exact loaded_formsGroups (w := w) (t := keepUp t) rfl now peers rfl
        ⟨agrees.now, agrees.config, agrees.peers, agrees.phase, agrees.number⟩ still.1
    · have same : t.line = s.line := agrees.line.trans line
      exact show unmeasured t.line = unmeasured s.line from congrArg unmeasured same

end Sys2Proof.Machine
end
